-- ==== Sys2Proof/Word.lean ====
section
/-! DEFINITION. The word types of the block: bytes, the two frames, the operand port and the CRC ROM. -/

namespace Sys2Proof

/-- One byte, unsigned (R12: nothing in this block is signed). -/
abbrev Byte := BitVec 8

/-- CMD_IN, the 68-bit operand port of ENC (R40, R77). -/
abbrev CmdPort := BitVec 68

/-- A command frame: exactly 9 bytes, byte 0 first on the link (R6, R52, R78). -/
abbrev CmdFrame := Vector Byte 9

/-- FRAME_IN and every reply frame: exactly 15 bytes, byte 0 first on the link (R6, R52, R81). -/
abbrev ReplyFrame := Vector Byte 15

/-- The contents of the CRC ROM: 256 entries of 8 bits, every 8-bit address valid (R7, R50). -/
abbrev Rom := Vector Byte 256

end Sys2Proof
end

