-- ==== Sys2Proof/Syntax.lean ====
section
/-! DEFINITION. The instructions: one constructor per row of spec/opcode_table.json. -/

namespace Sys2Proof

/-- The legal requests (R71). The operands of all three but LEN are port values (R76, R89), so LEN is the only field. -/
inductive Instr where
  /-- ENC, word 0x00: encode CMD_IN into a command frame in TX_FRAME (R72, R120). -/
  | enc
  /-- DEC, word 0x01: check and decode the reply frame on FRAME_IN (R73, R140). -/
  | dec
  /-- CRC, word `(LEN << 4) | 0x02`: the checksum of the first LEN bytes of FRAME_IN (R74, R107). -/
  | crc (len : BitVec 4)
  deriving DecidableEq, Repr

end Sys2Proof
end

