-- ==== Sys2Proof/WellFormed.lean ====
section
/-! DEFINITION. Which instruction terms the encoding has a legal word for. -/

namespace Sys2Proof

/-- R74, R89: LEN is 1 to 15; ENC and DEC have no field to check. -/
def Instr.wellFormed : Instr → Bool
  | .enc => true
  | .dec => true
  | .crc len => len != 0

end Sys2Proof
end

