-- ==== Sys2Proof/Decode.lean ====
section
/-! DEFINITION. Decoding a request word, total and rejecting by name, and the encoder beside it. -/

namespace Sys2Proof

/-- Why a request word is illegal: the four disjoint classes (a) to (d) of R75. -/
inductive IllegalWord where
  /-- R75 (a): OP = 11, any RSV, any LEN. -/
  | opReserved
  /-- R75 (b): OP = 00, 01 or 10 with RSV other than 00. -/
  | rsvNonzero
  /-- R75 (c): OP = 00 or 01 with RSV = 00 and LEN other than 0. -/
  | lenNonzero
  /-- R75 (d): OP = 10 with RSV = 00 and LEN = 0, the word 0x02. -/
  | crcLenZero
  deriving DecidableEq, Repr

/-- OP, bits 1:0 of a request word (R70). -/
def opField (w : Byte) : BitVec 2 := w.extractLsb' 0 2

/-- RSV, bits 3:2 of a request word (R70). -/
def rsvField (w : Byte) : BitVec 2 := w.extractLsb' 2 2

/-- LEN, bits 7:4 of a request word (R70, R89). -/
def lenField (w : Byte) : BitVec 4 := w.extractLsb' 4 4

/-- The instruction of a request word, or the class of R75 it is illegal by (R70 to R75). -/
def decode (w : Byte) : Except IllegalWord Instr :=
  if opField w = 0b11#2 then .error .opReserved
  else if rsvField w ≠ 0b00#2 then .error .rsvNonzero
  else if opField w = 0b10#2 then
    if lenField w = 0 then .error .crcLenZero else .ok (.crc (lenField w))
  else if lenField w ≠ 0 then .error .lenNonzero
  else if opField w = 0b00#2 then .ok .enc
  else .ok .dec

/-- The request word of an instruction (R72 to R74): LEN in bits 7:4, RSV = 00, OP in bits 1:0. -/
def encode : Instr → Byte
  | .enc => 0b0000#4 ++ 0b00#2 ++ 0b00#2
  | .dec => 0b0000#4 ++ 0b00#2 ++ 0b01#2
  | .crc len => len ++ 0b00#2 ++ 0b10#2

/-- The instruction the decoder reads from a word whose bits are `w`, numbered as spec/opcode_table.json numbers them.
Every request is one 8-bit word (R90), so the bits of `w` above bit 7 and the count `nbits` say nothing. -/
def decodeTableWord (_nbits w : Nat) : Option Instr :=
  match decode (BitVec.ofNat 8 w) with
  | .ok i => some i
  | .error _ => none

end Sys2Proof
end

