-- ==== Sys2Proof/Config.lean ====
section
/-! DEFINITION. The two parameters the spec leaves OPEN, as constants without a body: no proof can see a value of either. -/

namespace Sys2Proof

/-- CRC_TABLE (R7, R41): the checksum table of the device.
The spec gives no entry of it (N1), so it has no body; `Machine.State.reset` puts it into the CRC ROM.
Log entry 1. -/
opaque Config.crcTable : Byte → Byte

/-- HOST_BUS (R59): which of the registers 0 to 13 of R24, if any, a host bus address selects.
The spec leaves the placement to the platform, so it has no body. Log entry 2. -/
opaque Config.hostBus : Nat → Option (Fin 14)

end Sys2Proof
end

