-- ==== Sys2Proof/Machine/State.lean ====
section
/-! DEFINITION. The state of the block and of what surrounds it, as plain data, the reasons a step can stop, and the state after reset. -/

namespace Sys2Proof.Machine

/-- The output registers of R24, by name. -/
inductive Reg where
  | status
  | txFrame
  | rStat
  | rCtrl (i : Fin 6)
  | rAux
  | rLapCar
  | rLapMs
  | rBtn
  | crcOut
  deriving DecidableEq, Repr

/-- What a register read returns: the whole register at its own width (R24, R54). -/
inductive RegValue where
  /-- A register of 8 bits. -/
  | byte (v : Byte)
  /-- R_LAPMS, 32 bits. -/
  | word (v : BitVec 32)
  /-- TX_FRAME, 9 bytes. -/
  | frame (v : CmdFrame)
  deriving DecidableEq, Repr

/-- The operand ports (R40): inputs of a request, each taken whole. -/
structure Ports where
  /-- CMD_IN (R77). -/
  cmdIn : CmdPort
  /-- FRAME_IN[0..14]; always 15 bytes, so no request can carry a partial frame (R152, R180). -/
  frameIn : ReplyFrame
  deriving DecidableEq, Repr

/-- The outcomes of the environment that issue no request (R181). -/
inductive LinkError where
  | connectionError
  | timeoutError
  | ioError
  deriving DecidableEq, Repr

/-- What the host or the environment does between two steps of the block (R182, R185, R186, R190). -/
inductive HostEvent where
  /-- Issue a request word with operand values on the ports (R2, R185). -/
  | request (word : Byte) (ports : Ports)
  /-- Apply the RESET input (R190). -/
  | reset
  /-- Read a register by its name (R39, R185). -/
  | readReg (r : Reg)
  /-- Read at a host bus address (R59, log entry 2). -/
  | readBus (addr : Nat)
  /-- Try to write a register (R39, R186: there is no such transaction). -/
  | writeReg (r : Reg)
  /-- The environment sends TX_FRAME to the console (R182, log entry 7). -/
  | transmit
  /-- The environment meets one of its own errors and issues no request (R180, R181). -/
  | linkError (e : LinkError)
  deriving DecidableEq, Repr

/-- The architectural state of the block, exactly R20: the output registers of R24 and the hidden bit RHAS.
A data register is an optional value, because "no value" is the state the spec gives it at reset (R24, R36, R190). -/
structure Block where
  /-- Register 0, STATUS (R25). -/
  status : Byte
  /-- Register 1, TX_FRAME (R31). -/
  txFrame : Option CmdFrame
  /-- Register 2, R_STAT (R32). -/
  rStat : Option Byte
  /-- Registers 3 to 8, R_CTRL0 to R_CTRL5 (R33). -/
  rCtrl : Vector (Option Byte) 6
  /-- Register 9, R_AUX (R34). -/
  rAux : Option Byte
  /-- Register 10, R_LAPCAR (R34). -/
  rLapCar : Option Byte
  /-- Register 11, R_LAPMS (R35). -/
  rLapMs : Option (BitVec 32)
  /-- Register 12, R_BTN (R35). -/
  rBtn : Option Byte
  /-- Register 13, CRC_OUT (R38). -/
  crcOut : Option Byte
  /-- The hidden bit RHAS (R37). -/
  rhas : Bool
  deriving DecidableEq, Repr

/-- The block, and beside it the parameters of its step (R20: the request word, the operand ports and the CRC ROM contents)
and what the host and the environment see of it. -/
structure State where
  /-- The architectural state (R20). -/
  block : Block
  /-- The CRC ROM's contents: configuration that no step changes (R41, log entry 1). -/
  rom : Rom
  /-- What the host drives on the operand ports (R40, log entry 4). -/
  ports : Ports
  /-- What the host and the environment will do, in order (R22, R61, log entry 3). -/
  pending : List HostEvent
  /-- What the host's last register read returned (log entry 3). -/
  readData : Option (Reg × RegValue)
  /-- The bytes the environment has sent to the console, the first one sent first (R52, R182, log entry 7). -/
  link : List Byte
  deriving DecidableEq, Repr

/-- Why a step stops with a fault. -/
inductive Fault where
  /-- Raised by a host read, and by the environment sending TX_FRAME, of a register that holds no value: R36 and R184 (e) call it
  the reader's fault, I2 has a model fault. Safe: it stops where a device would show some bits. -/
  | noValue (r : Reg)
  deriving DecidableEq, Repr

/-- Why a step is refused. -/
inductive Refusal where
  /-- Raised by no arm any more: it stands for an instruction that has no meaning yet. Safe: it stops. -/
  | notModelled (mnemonic : String)
  /-- Raised by a host's attempt to write a register: R39 says that there is no write transaction and that a model refuses one.
  Safe: it stops. -/
  | noWriteTransaction (r : Reg)
  /-- Raised by a bus read at an address that HOST_BUS gives to no register of this block (R59). Safe: it stops. -/
  | notOnBus (addr : Nat)
  deriving DecidableEq, Repr

/-- The block after reset (R24, R190, R191): STATUS = 0x00, RHAS = 0, every data register with no value. -/
def Block.reset : Block where
  status := 0x00
  txFrame := none
  rStat := none
  rCtrl := #v[none, none, none, none, none, none]
  rAux := none
  rLapCar := none
  rLapMs := none
  rBtn := none
  crcOut := none
  rhas := false

/-- The machine right after reset: the block as R190 says, the CRC ROM holding CRC_TABLE (R192), no host action waiting (R193).
What the ports carry then is not state of the block (R40); log entry 4. -/
def State.reset : State where
  block := Block.reset
  rom := Vector.ofFn fun i => Config.crcTable (BitVec.ofFin i)
  ports := { cmdIn := 0, frameIn := Vector.replicate 15 0 }
  pending := []
  readData := none
  link := []

end Sys2Proof.Machine
end

