-- ==== Sys2Proof/Machine/Flags.lean ====
section
/-! DEFINITION. The five STATUS bits and what each outcome of a request does to them. -/

namespace Sys2Proof.Machine

/-- The fields of STATUS (R25). -/
inductive StatusBit where
  | txv
  | rvalid
  | chkerr
  | crcv
  | illegal
  deriving DecidableEq, Repr

/-- The bit of STATUS each field stands at (R25). -/
def StatusBit.index : StatusBit → Nat
  | .txv => 0
  | .rvalid => 1
  | .chkerr => 2
  | .crcv => 3
  | .illegal => 4

/-- A field of a STATUS value. -/
def getFlag (status : Byte) (b : StatusBit) : Bool := status.getLsbD b.index

/-- `STATUS.F <- v` (R13): one field written, every other bit as it was. -/
def setFlag (status : Byte) (b : StatusBit) (v : Bool) : Byte :=
  if v then status ||| (1#8 <<< b.index) else status &&& ~~~(1#8 <<< b.index)

/-- R126: ENC sets TXV. -/
def statusAfterEnc (status : Byte) : Byte := setFlag status .txv true

/-- R107: CRC sets CRCV. -/
def statusAfterCrc (status : Byte) : Byte := setFlag status .crcv true

/-- R151: a DEC that passes its checksum sets RVALID and clears CHKERR. -/
def statusAfterDecode (status : Byte) : Byte := setFlag (setFlag status .rvalid true) .chkerr false

/-- R171: a DEC that fails its checksum clears RVALID and sets CHKERR. -/
def statusAfterChecksumError (status : Byte) : Byte := setFlag (setFlag status .rvalid false) .chkerr true

/-- R172: an illegal request sets ILLEGAL. -/
def statusAfterIllegal (status : Byte) : Byte := setFlag status .illegal true

/-- The bits of STATUS that are not hardwired to 0 (R25, R39). -/
def statusMask : Byte := 0x1F

end Sys2Proof.Machine
end

