-- ==== Sys2Proof/Machine/Ops.lean ====
section
/-! DEFINITION. The named operations the meanings share: the ROM, the checksum, the registers, the error outcomes, reset. -/

namespace Sys2Proof.Machine

/-! ### The CRC ROM and the checksum -/

/-- `MemRead(CRC_ROM, i, 1)`, written `T[i]` (R13, R50). Every address is valid and a read changes nothing (R58). -/
def romRead (rom : Rom) (i : Byte) : Byte := rom[i.toNat]'i.isLt

/-- The loop of R100 from the running value `crc`: every byte but the last of what is left goes through the table. -/
def checksumLoop (T : Byte → Byte) (crc : Byte) : List Byte → Byte
  | [] => crc
  | [_] => crc
  | b :: c :: rest => checksumLoop T (T (crc ^^^ b)) (c :: rest)

/-- `checksum(buf)` of a buffer with at least one byte, its first byte given apart (R100). -/
def checksumFrom (T : Byte → Byte) (b0 : Byte) (rest : List Byte) : Byte := checksumLoop T (T b0) rest

/-- `checksum(buf)` (R100); an empty buffer has none (R103). -/
def checksum (T : Byte → Byte) : List Byte → Option Byte
  | [] => none
  | b0 :: rest => some (checksumFrom T b0 rest)

/-- R104: a frame of at least two bytes is valid iff its checksum is its last byte. -/
def frameValid (T : Byte → Byte) (f : List Byte) : Bool :=
  decide (2 ≤ f.length) && (checksum T f == f.getLast?)

/-! ### Writing the registers -/

/-- `STATUS <- v` (R13). -/
def Block.setStatus (b : Block) (v : Byte) : Block := { b with status := v }

/-- `TX_FRAME <- f`, all nine bytes at once (R31, R126). -/
def Block.setTxFrame (b : Block) (f : CmdFrame) : Block := { b with txFrame := some f }

/-- `CRC_OUT <- v` (R38). -/
def Block.setCrcOut (b : Block) (v : Byte) : Block := { b with crcOut := some v }

/-- Every reply register written and `RHAS <- 1`, in one step (R37, R151). -/
def Block.setReply (b : Block) (stat : Byte) (ctrl : Vector Byte 6) (aux lapCar : Byte) (lapMs : BitVec 32)
    (btn : Byte) : Block :=
  { b with
    rStat := some stat
    rCtrl := #v[some ctrl[0], some ctrl[1], some ctrl[2], some ctrl[3], some ctrl[4], some ctrl[5]]
    rAux := some aux
    rLapCar := some lapCar
    rLapMs := some lapMs
    rBtn := some btn
    rhas := true }

/-! ### Error outcomes -/

/-- The two error outcomes a request can have (R173). -/
inductive ErrorOutcome where
  | checksumError
  | illegal
  deriving DecidableEq, Repr

/-- The code of an error outcome: the index of its STATUS bit (R173). -/
def ErrorOutcome.code : ErrorOutcome → Nat
  | .checksumError => StatusBit.chkerr.index
  | .illegal => StatusBit.illegal.index

/-- `raise` of R13: the STATUS bits that R171 and R172 name change, nothing is saved and control goes nowhere (R176). -/
def raise (e : ErrorOutcome) (b : Block) : Block :=
  match e with
  | .checksumError => b.setStatus (statusAfterChecksumError b.status)
  | .illegal => b.setStatus (statusAfterIllegal b.status)

/-! ### Reading the registers -/

/-- The register numbers of R24. -/
def Reg.number : Reg → Fin 14
  | .status => 0
  | .txFrame => 1
  | .rStat => 2
  | .rCtrl i => ⟨3 + i.val, by omega⟩
  | .rAux => 9
  | .rLapCar => 10
  | .rLapMs => 11
  | .rBtn => 12
  | .crcOut => 13

/-- The register of a number of R24. -/
def Reg.ofNumber (n : Fin 14) : Reg :=
  match n with
  | 0 => .status
  | 1 => .txFrame
  | 2 => .rStat
  | 3 => .rCtrl 0
  | 4 => .rCtrl 1
  | 5 => .rCtrl 2
  | 6 => .rCtrl 3
  | 7 => .rCtrl 4
  | 8 => .rCtrl 5
  | 9 => .rAux
  | 10 => .rLapCar
  | 11 => .rLapMs
  | 12 => .rBtn
  | 13 => .crcOut

/-- A host read of a whole register (R39, R54), `none` where it holds no value (R36).
The reserved bits of R39 read 0, whatever the state holds there. -/
def readReg (b : Block) : Reg → Option RegValue
  | .status => some (.byte (b.status &&& statusMask))
  | .txFrame => b.txFrame.map .frame
  | .rStat => b.rStat.map fun v => .byte (v &&& 0x7F#8)
  | .rCtrl i => b.rCtrl[i].map .byte
  | .rAux => b.rAux.map .byte
  | .rLapCar => b.rLapCar.map fun v => .byte (v &&& 0x07#8)
  | .rLapMs => b.rLapMs.map .word
  | .rBtn => b.rBtn.map fun v => .byte (v &&& 0x3F#8)
  | .crcOut => b.crcOut.map .byte

/-! ### The state around the block -/

/-- The state with another block. -/
def State.setBlock (s : State) (b : Block) : State := { s with block := b }

/-- The state with other operands on the ports. -/
def State.setPorts (s : State) (p : Ports) : State := { s with ports := p }

/-- The state with another list of coming host actions. -/
def State.setPending (s : State) (l : List HostEvent) : State := { s with pending := l }

/-- The state after a host read has returned `v` from `r`. -/
def State.setReadData (s : State) (r : Reg) (v : RegValue) : State := { s with readData := some (r, v) }

/-- The state after the environment has sent the bytes `l`, in their order. -/
def State.sendBytes (s : State) (l : List Byte) : State := { s with link := s.link ++ l }

/-- The RESET input (R190): every output register and RHAS. The ROM stays (R192), and so does what the host holds (log entry 15). -/
def State.applyReset (s : State) : State := s.setBlock Block.reset

end Sys2Proof.Machine
end

