-- ==== Sys2Proof/Machine/Operands.lean ====
section
/-! DEFINITION. The operand ports: the fields of CMD_IN, the buffer of CRC, the fields of a reply frame, and a frame as one value. -/

namespace Sys2Proof.Machine

/-! ### CMD_IN (R77) -/

/-- POWER_i, bits 10i+7 to 10i: 8 bits, 0 to 255 (R77, C2). -/
def carPower (cmd : CmdPort) (i : Fin 6) : Byte := cmd.extractLsb' (10 * i) 8

/-- LANE_i, bit 10i+8. -/
def carLane (cmd : CmdPort) (i : Fin 6) : Bool := cmd.getLsbD (10 * i + 8)

/-- BRAKE_i, bit 10i+9. -/
def carBrake (cmd : CmdPort) (i : Fin 6) : Bool := cmd.getLsbD (10 * i + 9)

/-- LED_7 to LED_0 as one byte, bit j = LED_j, bits 67 to 60. -/
def ledMask (cmd : CmdPort) : Byte := cmd.extractLsb' 60 8

/-! ### FRAME_IN -/

/-- FRAME_IN[0..LEN-1], the buffer of CRC (R89, R107). -/
def crcBuffer (f : ReplyFrame) (len : BitVec 4) : List Byte := f.toList.take len.toNat

/-- The connected flag of controller i: bit 1+i of reply byte 0, active-high (R82, R142). -/
def connected (f : ReplyFrame) (i : Fin 6) : Bool := f[0].getLsbD (1 + i)

/-- The wire byte of controller i, reply byte 1+i (R83). -/
def ctrlByte (f : ReplyFrame) (i : Fin 6) : Byte := f[1 + i.val]'(by omega)

/-- tc, the lap ticks: reply bytes 9 to 12, little-endian (R53, R147). -/
def lapTicks (f : ReplyFrame) : BitVec 32 :=
  f[9].zeroExtend 32 ||| (f[10].zeroExtend 32 <<< 8) ||| (f[11].zeroExtend 32 <<< 16) ||| (f[12].zeroExtend 32 <<< 24)

/-! ### A frame read as one value (R78, R81) -/

/-- A frame of n bytes as one 8n-bit value: byte k occupies bits 8k+7 to 8k. -/
def frameValue {n : Nat} (f : Vector Byte n) : BitVec (8 * n) :=
  BitVec.ofFnLE fun j => (f[j.val / 8]'(by omega)).getLsbD (j.val % 8)

/-- The frame of n bytes that an 8n-bit value is: byte k is bits 8k+7 to 8k. -/
def frameOfValue {n : Nat} (v : BitVec (8 * n)) : Vector Byte n := Vector.ofFn fun k => v.extractLsb' (8 * k) 8

/-- The command frame as one 72-bit value (R78). -/
def cmdFrameValue (f : CmdFrame) : BitVec 72 := frameValue f

/-- The command frame of a 72-bit value (R78). -/
def cmdFrameOfValue (v : BitVec 72) : CmdFrame := frameOfValue (n := 9) v

/-- The reply frame as one 120-bit value (R81). -/
def replyFrameValue (f : ReplyFrame) : BitVec 120 := frameValue f

/-- The reply frame of a 120-bit value (R81). -/
def replyFrameOfValue (v : BitVec 120) : ReplyFrame := frameOfValue (n := 15) v

end Sys2Proof.Machine
end

