-- ==== Sys2Proof/Machine/Command.lean ====
section
/-! DEFINITION. ENC: the command frame and the meaning of the request (spec/41_encode.md). -/

namespace Sys2Proof.Machine

/-- `min(POWER, 63)`, a clamp and not a mask (R79, R123). -/
def clampPower (power : Byte) : Byte := if power.toNat ≤ 63 then power else 63

/-- `s_i`, a car status byte before complementing (R79). -/
def carStatus (power : Byte) (brake lane : Bool) : Byte :=
  ((BitVec.ofBool brake).zeroExtend 8 <<< 7) ||| ((BitVec.ofBool lane).zeroExtend 8 <<< 6) ||| clampPower power

/-- Byte 1+i of the command frame: the complement of `s_i` (R122). -/
def carWire (cmd : CmdPort) (i : Fin 6) : Byte :=
  ~~~(carStatus (carPower cmd i) (carBrake cmd i) (carLane cmd i))

/-- The command frame of ENC (R120): byte 0 fixed, cars, LEDs, and the checksum of the whole frame with a placeholder at its end,
which the checksum does not read (R101, C1). -/
def commandFrame (T : Byte → Byte) (cmd : CmdPort) : CmdFrame :=
  #v[0xFF, carWire cmd 0, carWire cmd 1, carWire cmd 2, carWire cmd 3, carWire cmd 4, carWire cmd 5, ledMask cmd,
    checksumFrom T 0xFF [carWire cmd 0, carWire cmd 1, carWire cmd 2, carWire cmd 3, carWire cmd 4, carWire cmd 5,
      ledMask cmd, 0x00]]

/-- What ENC does to the block (R120, R126). -/
def encBlock (T : Byte → Byte) (cmd : CmdPort) (b : Block) : Block :=
  (b.setTxFrame (commandFrame T cmd)).setStatus (statusAfterEnc b.status)

/-- ENC (R120). It is total: no value of CMD_IN has another outcome (R127). -/
def execEnc (s : State) : Host.Outcome State Fault Refusal :=
  .next (s.setBlock (encBlock (romRead s.rom) s.ports.cmdIn s.block))

end Sys2Proof.Machine
end

