-- ==== Sys2Proof/Machine/Crc.lean ====
section
/-! DEFINITION. CRC: the checksum of the first LEN bytes of FRAME_IN (spec/40_checksum.md, R107). -/

namespace Sys2Proof.Machine

/-- What CRC does to the block (R107). A length of 0 is an illegal request, as its word 0x02 is (R75 (d), R103, R172). -/
def crcBlock (T : Byte → Byte) (f : ReplyFrame) (len : BitVec 4) (b : Block) : Block :=
  match checksum T (crcBuffer f len) with
  | some crc => (b.setCrcOut crc).setStatus (statusAfterCrc b.status)
  | none => raise .illegal b

/-- CRC (R107). -/
def execCrc (len : BitVec 4) (s : State) : Host.Outcome State Fault Refusal :=
  .next (s.setBlock (crcBlock (romRead s.rom) s.ports.frameIn len s.block))

end Sys2Proof.Machine
end

