-- ==== Sys2Proof/Machine/Reply.lean ====
section
/-! DEFINITION. DEC: the fields of a reply frame and the meaning of the request (spec/42_decode.md). -/

namespace Sys2Proof.Machine

/-- R_CTRLi: the complemented wire byte of a connected controller (R143), 0x00 of a disconnected one (R144). -/
def ctrlValue (f : ReplyFrame) (i : Fin 6) : Byte := if connected f i then ~~~(ctrlByte f i) else 0x00

/-- R_LAPMS: `(4 * tc) div 625`, the product taken exactly (R148). -/
def lapTimeMs (tc : BitVec 32) : BitVec 32 := BitVec.ofNat 32 (4 * tc.toNat / 625)

/-- The reply registers of a frame that has passed its checksum (R142 to R149), RHAS with them (R151). -/
def writeReply (f : ReplyFrame) (b : Block) : Block :=
  b.setReply (f[0] &&& 0x7F#8)
    #v[ctrlValue f 0, ctrlValue f 1, ctrlValue f 2, ctrlValue f 3, ctrlValue f 4, ctrlValue f 5]
    f[7] (f[8] &&& 0x07#8) (lapTimeMs (lapTicks f)) (~~~f[13] &&& 0x3F#8)

/-- The checksum gate (R141): the checksum of the whole frame, which covers bytes 0 to 13, against byte 14. -/
def replyPasses (T : Byte → Byte) (f : ReplyFrame) : Bool := frameValid T f.toList

/-- What DEC does to the block (R140): all of the reply registers or none (R152). -/
def decBlock (T : Byte → Byte) (f : ReplyFrame) (b : Block) : Block :=
  if replyPasses T f then (writeReply f b).setStatus (statusAfterDecode b.status) else raise .checksumError b

/-- DEC (R140). -/
def execDec (s : State) : Host.Outcome State Fault Refusal :=
  .next (s.setBlock (decBlock (romRead s.rom) s.ports.frameIn s.block))

end Sys2Proof.Machine
end

