-- ==== Sys2Proof/Machine/Request.lean ====
section
/-! DEFINITION. One action of the host or of the environment: a request, RESET, a register access, and the link. -/

namespace Sys2Proof.Machine

/-- A request word with its operands already on the ports. Its legality is checked first (R174), so an illegal word reads no
operand and only sets ILLEGAL (R172). -/
def performWord (word : Byte) (s : State) : Host.Outcome State Fault Refusal :=
  match decode word with
  | .ok i => exec i s
  | .error _ => .next (s.setBlock (raise .illegal s.block))

/-- A host read of a register (R39): it changes nothing of the block, and a register that holds no value is the reader's
fault (R36). -/
def performRead (r : Reg) (s : State) : Host.Outcome State Fault Refusal :=
  match readReg s.block r with
  | some v => .next (s.setReadData r v)
  | none => .fault (.noValue r)

/-- A read at a host bus address: a read of the register HOST_BUS places there (R59). -/
def performBusRead (addr : Nat) (s : State) : Host.Outcome State Fault Refusal :=
  match Config.hostBus addr with
  | some n => performRead (Reg.ofNumber n) s
  | none => .refused (.notOnBus addr)

/-- The environment sends TX_FRAME[0..8] in index order (R52, R182). The block does not change. -/
def performTransmit (s : State) : Host.Outcome State Fault Refusal :=
  match s.block.txFrame with
  | some f => .next (s.sendBytes f.toList)
  | none => .fault (.noValue .txFrame)

/-- One action, in the state that no longer has it waiting. -/
def performEvent (e : HostEvent) (s : State) : Host.Outcome State Fault Refusal :=
  match e with
  | .request word ports => performWord word (s.setPorts ports)
  | .reset => .next s.applyReset
  | .readReg r => performRead r s
  | .readBus addr => performBusRead addr s
  | .writeReg r => .refused (.noWriteTransaction r)
  | .transmit => performTransmit s
  | .linkError _ => .next s

/-- What a step does: the first waiting action, in the order the host issues them (R61); with none waiting the block waits
(R193) and nothing changes. -/
def performNext (s : State) : Host.Outcome State Fault Refusal :=
  match s.pending with
  | [] => .next s
  | e :: rest => performEvent e (s.setPending rest)

end Sys2Proof.Machine
end

