-- ==== Sys2Proof/Machine/Step.lean ====
section
/-! DEFINITION. One step of the machine, and the placing of one request before it. -/

namespace Sys2Proof.Machine

/-- One step: one action of the host or the environment, performed whole (R57). -/
def step (s : State) : Host.Outcome State Fault Refusal := performNext s

/-- `s` with the request word `w` as the host's next action, carrying the operands the ports show (log entry 6).
A request is one 8-bit word (R90), so the count of bits says nothing. -/
def State.withFetchWord (s : State) (_nbits w : Nat) : State :=
  s.setPending (.request (BitVec.ofNat 8 w) s.ports :: s.pending)

end Sys2Proof.Machine
end

