-- ==== Sys2Proof/Machine/DataModel.lean ====
section
/-! DEFINITION. The document's data model, CommandState and ReplyState (R14), against the port and the registers. -/

namespace Sys2Proof.Machine

/-- One entry of `cars` of a CommandState (R14, R77). Power is 8 bits, before the clamp (C2). -/
structure CarState where
  power : Byte
  brake : Bool
  laneChange : Bool
  deriving DecidableEq, Repr

/-- A CommandState (R14): six cars, eight LEDs (R5). -/
structure CommandState where
  cars : Vector CarState 6
  leds : Vector Bool 8
  deriving DecidableEq, Repr

/-- Car i of the CommandState on CMD_IN (R77). -/
def carOfPort (cmd : CmdPort) (i : Fin 6) : CarState where
  power := carPower cmd i
  brake := carBrake cmd i
  laneChange := carLane cmd i

/-- The CommandState that CMD_IN holds (R77). -/
def CommandState.ofPort (cmd : CmdPort) : CommandState where
  cars := #v[carOfPort cmd 0, carOfPort cmd 1, carOfPort cmd 2, carOfPort cmd 3, carOfPort cmd 4, carOfPort cmd 5]
  leds := #v[cmd.getLsbD 60, cmd.getLsbD 61, cmd.getLsbD 62, cmd.getLsbD 63, cmd.getLsbD 64, cmd.getLsbD 65,
    cmd.getLsbD 66, cmd.getLsbD 67]

/-- The ten bits of one car: POWER in bits 7:0, LANE at bit 8, BRAKE at bit 9 (R77). -/
def CarState.bits (c : CarState) : BitVec 10 :=
  c.power.zeroExtend 10 ||| ((BitVec.ofBool c.laneChange).zeroExtend 10 <<< 8) |||
    ((BitVec.ofBool c.brake).zeroExtend 10 <<< 9)

/-- The LED byte, bit j = leds[j] (R77). -/
def CommandState.ledBits (c : CommandState) : Byte := BitVec.ofFnLE fun j => c.leds[j]

/-- CMD_IN holding a CommandState: car 0 at bits 9:0, up to car 5 at 59:50, the LEDs at 67:60 (R77). -/
def CommandState.toPort (c : CommandState) : CmdPort :=
  c.cars[0].bits.zeroExtend 68 ||| (c.cars[1].bits.zeroExtend 68 <<< 10) ||| (c.cars[2].bits.zeroExtend 68 <<< 20) |||
    (c.cars[3].bits.zeroExtend 68 <<< 30) ||| (c.cars[4].bits.zeroExtend 68 <<< 40) |||
    (c.cars[5].bits.zeroExtend 68 <<< 50) ||| (c.ledBits.zeroExtend 68 <<< 60)

/-- One entry of `controllers` of a ReplyState (R14). -/
structure ControllerState where
  connected : Bool
  throttlePosition : BitVec 6
  laneChangePressed : Bool
  brakeButtonPressed : Bool
  deriving DecidableEq, Repr

/-- lastLapTime of a ReplyState (R14): carId 0 to 7, timeMs. -/
structure LapTime where
  carId : BitVec 3
  timeMs : BitVec 32
  deriving DecidableEq, Repr

/-- A ReplyState (R14). -/
structure ReplyState where
  controllers : Vector ControllerState 6
  auxPortCurrent : Byte
  lastLapTime : LapTime
  startPressed : Bool
  enterPressed : Bool
  upPressed : Bool
  downPressed : Bool
  leftPressed : Bool
  rightPressed : Bool
  trackPowered : Bool
  deriving DecidableEq, Repr

/-- controllers[i] as R_STAT and R_CTRLi hold it (R32, R33). -/
def controllerOfRegs (stat ctrl : Byte) (i : Fin 6) : ControllerState where
  connected := stat.getLsbD (1 + i)
  throttlePosition := ctrl.extractLsb' 0 6
  laneChangePressed := ctrl.getLsbD 6
  brakeButtonPressed := ctrl.getLsbD 7

/-- The ReplyState that the reply registers hold (R32 to R35), none while they hold no value (R36). -/
def Block.replyState (b : Block) : Option ReplyState := do
  let stat ← b.rStat
  let c0 ← b.rCtrl[0]
  let c1 ← b.rCtrl[1]
  let c2 ← b.rCtrl[2]
  let c3 ← b.rCtrl[3]
  let c4 ← b.rCtrl[4]
  let c5 ← b.rCtrl[5]
  let aux ← b.rAux
  let car ← b.rLapCar
  let ms ← b.rLapMs
  let btn ← b.rBtn
  pure
    { controllers := #v[controllerOfRegs stat c0 0, controllerOfRegs stat c1 1, controllerOfRegs stat c2 2,
        controllerOfRegs stat c3 3, controllerOfRegs stat c4 4, controllerOfRegs stat c5 5]
      auxPortCurrent := aux
      lastLapTime := { carId := car.extractLsb' 0 3, timeMs := ms }
      startPressed := btn.getLsbD 0
      rightPressed := btn.getLsbD 1
      upPressed := btn.getLsbD 2
      enterPressed := btn.getLsbD 3
      leftPressed := btn.getLsbD 4
      downPressed := btn.getLsbD 5
      trackPowered := stat.getLsbD 0 }

end Sys2Proof.Machine
end

