-- ==== Sys2Proof/Machine/Asm.lean ====
section
/-! DEFINITION. The assembler of R91: one request per line, its text, and the request it stands for. -/

namespace Sys2Proof.Machine

/-- A line of R91, parsed. Byte counts are checked by `assemble`, as the rule puts it on the assembler. -/
inductive AsmLine where
  | enc (cmd : CommandState)
  | dec (bytes : List Byte)
  | crc (n : Nat) (bytes : List Byte)
  | req (word : Byte)
  deriving DecidableEq, Repr

/-- FRAME_IN holding the bytes a line gives from byte 0 on, and don't-care bytes after them (R91). -/
def overlay (bytes : List Byte) (dontCare : ReplyFrame) : ReplyFrame :=
  Vector.ofFn fun i => bytes.getD i.val dontCare[i]

/-- The request word and operands of a line, given what the ports carry where the line gives nothing (R91).
DEC takes exactly 15 bytes, CRC takes N of 1 to 15 and N bytes. -/
def assemble (dontCare : Ports) : AsmLine → Option HostEvent
  | .enc cmd => some (.request (encode .enc) { dontCare with cmdIn := cmd.toPort })
  | .dec bytes =>
    if bytes.length = 15 then
      some (.request (encode .dec) { dontCare with frameIn := overlay bytes dontCare.frameIn })
    else none
  | .crc n bytes =>
    if 1 ≤ n ∧ n ≤ 15 ∧ bytes.length = n then
      some (.request (encode (.crc (BitVec.ofNat 4 n))) { dontCare with frameIn := overlay bytes dontCare.frameIn })
    else none
  | .req word => some (.request word dontCare)

/-! ### The text of a line -/

/-- The line up to its comment. -/
def dropComment : List Char → List Char
  | [] => []
  | c :: rest => if c = ';' then [] else c :: dropComment rest

/-- The pieces of a text between separators, empty ones among them. -/
def splitChars (sep : Char → Bool) : List Char → List (List Char)
  | [] => [[]]
  | c :: rest =>
    if sep c then [] :: splitChars sep rest
    else
      match splitChars sep rest with
      | [] => [[c]]
      | piece :: more => (c :: piece) :: more

/-- The words of a line, between blanks. -/
def words (l : List Char) : List (List Char) :=
  (splitChars (fun c => c = ' ' || c = '\t') l).filter fun w => !w.isEmpty

/-- The digits of the bases 10 and 16, each at its value. -/
def digits : List Char := ['0', '1', '2', '3', '4', '5', '6', '7', '8', '9', 'A', 'B', 'C', 'D', 'E', 'F']

/-- The value of a number written in a base of at most 16, at least one digit. -/
def numeral (base : Nat) (text : List Char) : Option Nat :=
  if text.isEmpty then none
  else (text.mapM fun c => (digits.take base).idxOf? c.toUpper).map (Nat.ofDigits base ∘ List.reverse)

/-- P and N of R91: a decimal number. -/
def decimal (text : List Char) : Option Nat := numeral 10 text

/-- HH of R91: a byte in exactly two hexadecimal digits. -/
def hexByte (text : List Char) : Option Byte :=
  if text.length = 2 then (numeral 16 text).map (BitVec.ofNat 8) else none

/-- What follows a literal prefix. -/
def afterPrefix : List Char → List Char → Option (List Char)
  | [], l => some l
  | _ :: _, [] => none
  | p :: ps, c :: cs => if p = c then afterPrefix ps cs else none

/-- A flag written as 0 or 1. -/
def flagDigit : List Char → Option Bool
  | ['0'] => some false
  | ['1'] => some true
  | _ => none

/-- `c<k>=(P,B,L)`: P a decimal power of 0 to 255, B the brake, L the lane change. -/
def carWord (k : Char) (w : List Char) : Option CarState := do
  let body ← afterPrefix ['c', k, '=', '('] w
  let args ← if body.getLast? = some ')' then some body.dropLast else none
  match splitChars (fun c => c = ',') args with
  | [p, b, l] =>
    let power ← decimal p
    let brake ← flagDigit b
    let lane ← flagDigit l
    if power ≤ 255 then pure { power := BitVec.ofNat 8 power, brake := brake, laneChange := lane } else none
  | _ => none

/-- `leds=0xHH`: the LED byte, bit j = leds[j]. -/
def ledWord (w : List Char) : Option (Vector Bool 8) := do
  let hex ← afterPrefix ['l', 'e', 'd', 's', '=', '0', 'x'] w
  let m ← hexByte hex
  pure #v[m.getLsbD 0, m.getLsbD 1, m.getLsbD 2, m.getLsbD 3, m.getLsbD 4, m.getLsbD 5, m.getLsbD 6, m.getLsbD 7]

/-- The operands of an ENC line. -/
def encArgs : List (List Char) → Option AsmLine
  | [w0, w1, w2, w3, w4, w5, wl] => do
    let c0 ← carWord '0' w0
    let c1 ← carWord '1' w1
    let c2 ← carWord '2' w2
    let c3 ← carWord '3' w3
    let c4 ← carWord '4' w4
    let c5 ← carWord '5' w5
    let leds ← ledWord wl
    pure (.enc { cars := #v[c0, c1, c2, c3, c4, c5], leds := leds })
  | _ => none

/-- The operands of a CRC line: `N,` and then bytes. -/
def crcArgs : List (List Char) → Option AsmLine
  | w :: rest => do
    let digits ← if w.getLast? = some ',' then some w.dropLast else none
    let n ← decimal digits
    let bytes ← rest.mapM hexByte
    pure (.crc n bytes)
  | [] => none

/-- The operand of a REQ line: `0xHH`. -/
def reqArgs : List (List Char) → Option AsmLine
  | [w] => do
    let hex ← afterPrefix ['0', 'x'] w
    let v ← hexByte hex
    pure (.req v)
  | _ => none

/-- One line of R91. -/
def parseLine (line : List Char) : Option AsmLine :=
  match words (dropComment line) with
  | ['E', 'N', 'C'] :: args => encArgs args
  | ['D', 'E', 'C'] :: args => (args.mapM hexByte).map .dec
  | ['C', 'R', 'C'] :: args => crcArgs args
  | ['R', 'E', 'Q'] :: args => reqArgs args
  | _ => none

/-- A program text (R22, R91): one request per line, lines with nothing but blanks and a comment left out. -/
def parseProgram (text : List Char) : Option (List AsmLine) :=
  ((splitChars (fun c => c = '\n') text).filter fun line => !(words (dropComment line)).isEmpty).mapM parseLine

/-- The host's actions of a program: each line's request, in order, with the same don't-care operands (R22, R61, R91). -/
def assembleProgram (dontCare : Ports) (text : List Char) : Option (List HostEvent) :=
  (parseProgram text).bind fun lines => lines.mapM (assemble dontCare)

end Sys2Proof.Machine
end

