-- ==== Sys2Proof/Safety.lean ====
section
/-! DEFINITION. What holds of a block that only requests and RESET have touched, and what a dutiful host may read. -/

namespace Sys2Proof.Machine

/-- CRC_TABLE_injective, the named property of R106. The model never assumes it: a claim that needs it takes it as a premise. -/
def CrcTableInjective (T : Byte → Byte) : Prop := ∀ a b : Byte, T a = T b → a = b

/-- Whether a register holds a value (R36). -/
def Block.holds (b : Block) (r : Reg) : Bool := (readReg b r).isSome

/-- The reply registers, registers 2 to 12 of R24. -/
def Reg.isReply : Reg → Bool
  | .status | .txFrame | .crcOut => false
  | .rStat | .rCtrl _ | .rAux | .rLapCar | .rLapMs | .rBtn => true

/-- The valid bits say which registers hold a value, and RVALID and CHKERR are never both set (R26 to R29, R36, R37). -/
structure Block.FlagsAgree (b : Block) : Prop where
  /-- R36: TX_FRAME holds a value iff TXV = 1. -/
  txv : b.txFrame.isSome = getFlag b.status .txv
  /-- R36: CRC_OUT holds a value iff CRCV = 1. -/
  crcv : b.crcOut.isSome = getFlag b.status .crcv
  /-- R37: every reply register holds a value iff RHAS = 1. -/
  rhas : ∀ r : Reg, r.isReply = true → b.holds r = b.rhas
  /-- R37: RVALID = 1 only where RHAS = 1. -/
  rvalid : getFlag b.status .rvalid = true → b.rhas = true
  /-- R28: never RVALID and CHKERR at once. -/
  chkerr : ¬(getFlag b.status .rvalid = true ∧ getFlag b.status .chkerr = true)

/-- The reserved bits are 0 as they stand in the state, not only as they are read (R25, R32, R34, R35, R39). -/
structure Block.ReservedZero (b : Block) : Prop where
  status : b.status &&& 0xE0#8 = 0
  rStat : ∀ v ∈ b.rStat, v &&& 0x80#8 = 0
  rLapCar : ∀ v ∈ b.rLapCar, v &&& 0xF8#8 = 0
  rBtn : ∀ v ∈ b.rBtn, v &&& 0xC0#8 = 0
  /-- R35: R_LAPMS never exceeds 27487790. -/
  rLapMs : ∀ v ∈ b.rLapMs, v.toNat ≤ 27487790

/-- The contents that R121, R125 and R144 promise of whatever TX_FRAME and the controllers hold. -/
structure Block.ContentsRight (T : Byte → Byte) (b : Block) : Prop where
  /-- R121: byte 0 of TX_FRAME is 0xFF. -/
  ack : ∀ f ∈ b.txFrame, f[0] = 0xFF
  /-- R125: TX_FRAME is a valid frame. -/
  valid : ∀ f ∈ b.txFrame, frameValid T f.toList = true
  /-- R144: a controller that R_STAT shows disconnected reads 0x00. -/
  disconnected : ∀ v ∈ b.rStat, ∀ i : Fin 6, v.getLsbD (1 + i) = false → ∀ c ∈ b.rCtrl[i], c = 0x00

/-- The invariant of the machine: the three parts together. -/
structure State.Inv (s : State) : Prop where
  flags : s.block.FlagsAgree
  reserved : s.block.ReservedZero
  contents : s.block.ContentsRight (romRead s.rom)

/-- The host duties (c), (d) and (e) of R184 for reading one register: TX_FRAME where TXV = 1, CRC_OUT where CRCV = 1, a reply
register where RVALID = 1, and R_CTRLi only where R_STAT shows controller i connected as well. -/
def Block.mayRead (b : Block) : Reg → Bool
  | .status => true
  | .txFrame => getFlag b.status .txv
  | .crcOut => getFlag b.status .crcv
  | .rCtrl i => getFlag b.status .rvalid && (b.rStat.elim false fun v => v.getLsbD (1 + i))
  | .rStat | .rAux | .rLapCar | .rLapMs | .rBtn => getFlag b.status .rvalid

end Sys2Proof.Machine
end

