-- ==== Sys2Proof/Certificates/Slice0/Obligations.lean ====
section
/-! DEFINITION. The statements for the provers, from the numbered rules of spec/. -/

open Sys2Proof Sys2Proof.Machine

/-! ### Encoding (spec/30_encoding.md) -/

/-- Decoding and encoding agree in both directions: a word decodes to an instruction exactly where that instruction is well
formed and the word is its encoding. So no two instructions share a word and no legal word drops a bit (R72 to R75, R92). -/
def Obligations.DecodeEncodeAgree : Prop :=
  ∀ (w : Byte) (i : Instr), decode w = .ok i ↔ i.wellFormed = true ∧ encode i = w

/-- R72, R73, R74: the words of ENC, DEC and CRC by match and mask, and LEN other than 0 for CRC. -/
def Obligations.LegalRequestWords : Prop :=
  ∀ w : Byte,
    (decode w = .ok .enc ↔ w &&& 0xFF#8 = 0x00#8) ∧
    (decode w = .ok .dec ↔ w &&& 0xFF#8 = 0x01#8) ∧
    (∀ len : BitVec 4, decode w = .ok (.crc len) ↔ w = (len.zeroExtend 8 <<< 4) ||| 0x02#8 ∧ len ≠ 0)

/-- R75: the four classes of illegal words by their fields, how many words each holds, and that together they are 239. -/
def Obligations.IllegalWordClasses : Prop :=
  (∀ w : Byte,
    (decode w = .error .opReserved ↔ w.toNat % 4 = 3) ∧
    (decode w = .error .rsvNonzero ↔ w.toNat % 4 ≠ 3 ∧ w.toNat / 4 % 4 ≠ 0) ∧
    (decode w = .error .lenNonzero ↔ w.toNat % 4 < 2 ∧ w.toNat / 4 % 4 = 0 ∧ w.toNat / 16 ≠ 0) ∧
    (decode w = .error .crcLenZero ↔ w = 0x02#8)) ∧
  ((List.range 256).filter fun n => decide (decode (BitVec.ofNat 8 n) = .error .opReserved)).length = 64 ∧
  ((List.range 256).filter fun n => decide (decode (BitVec.ofNat 8 n) = .error .rsvNonzero)).length = 144 ∧
  ((List.range 256).filter fun n => decide (decode (BitVec.ofNat 8 n) = .error .lenNonzero)).length = 30 ∧
  ((List.range 256).filter fun n => decodeTableWord 8 n = none).length = 239

/-- Words written out from R70 to R74 and from the table of 95_test_vectors.md section 3.4. -/
def Obligations.SampleWordsDecode : Prop :=
  decodeTableWord 8 0b00000000 = some .enc ∧
  decodeTableWord 8 0b00000001 = some .dec ∧
  decodeTableWord 8 0b00010010 = some (.crc 1) ∧
  decodeTableWord 8 0b11110010 = some (.crc 15) ∧
  decodeTableWord 8 0x02 = none ∧ decodeTableWord 8 0x0D = none ∧ decodeTableWord 8 0x10 = none ∧
  decodeTableWord 8 0xF1 = none ∧ decodeTableWord 8 0x06 = none ∧ decodeTableWord 8 0xFF = none

/-- R77: CMD_IN and the CommandState are two forms of the same 68 bits, neither direction loses one, and each field is at the bits
of R77. -/
def Obligations.CommandPortRoundTrip : Prop :=
  (∀ cmd : CmdPort, (CommandState.ofPort cmd).toPort = cmd) ∧
  (∀ c : CommandState, CommandState.ofPort c.toPort = c) ∧
  (∀ (cmd : CmdPort) (i : Fin 6),
    (CommandState.ofPort cmd).cars[i].power = cmd.extractLsb' (10 * i) 8 ∧
    (CommandState.ofPort cmd).cars[i].laneChange = cmd.getLsbD (10 * i + 8) ∧
    (CommandState.ofPort cmd).cars[i].brake = cmd.getLsbD (10 * i + 9)) ∧
  (∀ (cmd : CmdPort) (j : Fin 8), (CommandState.ofPort cmd).leds[j] = cmd.getLsbD (60 + j))

/-- R78, R81: byte k of a command frame is bits 8k+7 to 8k of its 72-bit value, byte k of a reply frame those of its 120-bit value,
and the value and the frame are two forms of the same bits. -/
def Obligations.FrameIsItsBitValue : Prop :=
  (∀ (f : CmdFrame) (k : Fin 9), (cmdFrameValue f).extractLsb' (8 * k) 8 = f[k]) ∧
  (∀ v : BitVec 72, cmdFrameValue (cmdFrameOfValue v) = v) ∧
  (∀ (f : ReplyFrame) (k : Fin 15), (replyFrameValue f).extractLsb' (8 * k) 8 = f[k]) ∧
  (∀ v : BitVec 120, replyFrameValue (replyFrameOfValue v) = v)

/-! ### The step -/

/-- A request whose word decodes to an instruction runs exactly that instruction, with the request's operands on the ports and
the request no longer waiting. -/
def Obligations.StepRunsDecodedRequest : Prop :=
  ∀ (s : State) (w : Byte) (p : Ports) (rest : List HostEvent) (i : Instr),
    s.pending = .request w p :: rest → decode w = .ok i →
      step s = exec i { s with pending := rest, ports := p }

/-- Placing an instruction's word before the machine makes its very next step run that instruction, and nothing else changes. -/
def Obligations.PlacedWordRuns : Prop :=
  ∀ (s : State) (n w : Nat) (i : Instr), decodeTableWord n w = some i → step (s.withFetchWord n w) = exec i s

/-- R61, R193: with no host action waiting the block waits, and nothing changes. -/
def Obligations.IdleStepChangesNothing : Prop :=
  ∀ s : State, s.pending = [] → step s = .next s

/-- R170, R174: every request completes in one step, whatever its word and operands and whatever the state, with exactly one
outcome: an illegal word leaves all but STATUS.ILLEGAL alone, a DEC ends in success or in ChecksumError, ENC and CRC succeed. -/
def Obligations.EveryRequestCompletes : Prop :=
  ∀ (s : State) (w : Byte) (p : Ports) (rest : List HostEvent), s.pending = .request w p :: rest →
    ∃ b : Block, step s = .next { s with pending := rest, ports := p, block := b } ∧
      match decode w with
      | .error _ => b = { s.block with status := s.block.status ||| 0x10#8 }
      | .ok .dec =>
        getFlag b.status .illegal = getFlag s.block.status .illegal ∧
          getFlag b.status .rvalid = !getFlag b.status .chkerr
      | .ok .enc => b.txFrame.isSome = true ∧ getFlag b.status .txv = true ∧
          getFlag b.status .illegal = getFlag s.block.status .illegal ∧
          getFlag b.status .chkerr = getFlag s.block.status .chkerr
      | .ok (.crc _) => b.crcOut.isSome = true ∧ getFlag b.status .crcv = true ∧
          getFlag b.status .illegal = getFlag s.block.status .illegal ∧
          getFlag b.status .chkerr = getFlag s.block.status .chkerr

/-- R172 with R30: an illegal word sets ILLEGAL and changes nothing else, no operand of it matters, and every later step but
RESET keeps ILLEGAL set. -/
def Obligations.IllegalWordSetsStickyIllegal : Prop :=
  (∀ (s : State) (w : Byte) (p : Ports) (rest : List HostEvent) (c : IllegalWord),
    s.pending = .request w p :: rest → decode w = .error c →
      step s = .next { s with
        pending := rest, ports := p, block := { s.block with status := s.block.status ||| 0x10#8 } }) ∧
  (∀ (s t : State) (e : HostEvent) (rest : List HostEvent),
    s.pending = e :: rest → e ≠ .reset → step s = .next t →
      getFlag s.block.status .illegal = true → getFlag t.block.status .illegal = true)

/-! ### The checksum (spec/40_checksum.md) -/

/-- R100, R102, R103: the checksum of two bytes or more is a fold from zero over all of them but the last, of one byte it is that
byte's table entry, and an empty buffer has none; over every table. -/
def Obligations.ChecksumFoldsCoveredBytes : Prop :=
  ∀ T : Byte → Byte,
    (∀ buf : List Byte, 2 ≤ buf.length →
      checksum T buf = some (buf.dropLast.foldl (fun crc b => T (crc ^^^ b)) 0x00#8)) ∧
    (∀ b : Byte, checksum T [b] = some (T b)) ∧
    checksum T [] = none

/-- R101, R105: of a buffer of two bytes or more the checksum does not read the last byte. -/
def Obligations.ChecksumSkipsLastByte : Prop :=
  ∀ (T : Byte → Byte) (covered : List Byte) (x y : Byte), covered ≠ [] →
    checksum T (covered ++ [x]) = checksum T (covered ++ [y])

/-- R106: an injective table is a permutation; under it a change of exactly one covered byte changes the checksum; and a change of
the last byte never does, but makes a valid frame invalid (R104). -/
def Obligations.InjectiveTableCatchesByteChange : Prop :=
  (∀ T : Byte → Byte, CrcTableInjective T ↔ Function.Bijective T) ∧
  (∀ (T : Byte → Byte) (before after : List Byte) (x y : Byte), CrcTableInjective T →
    (after ≠ [] ∨ before = []) → x ≠ y → checksum T (before ++ x :: after) ≠ checksum T (before ++ y :: after)) ∧
  (∀ (T : Byte → Byte) (covered : List Byte) (x y : Byte), covered ≠ [] → x ≠ y →
    checksum T (covered ++ [x]) = checksum T (covered ++ [y]) ∧
    (frameValid T (covered ++ [x]) = true → frameValid T (covered ++ [y]) = false))

/-- R107: CRC with LEN of 2 or more folds the table over FRAME_IN[0..LEN-2], with LEN = 1 it reads the table at FRAME_IN[0], and it
writes CRC_OUT and CRCV and nothing else. -/
def Obligations.CrcWritesChecksum : Prop :=
  ∀ (s : State) (len : BitVec 4),
    (2 ≤ len.toNat → exec (.crc len) s = .next { s with block := { s.block with
      crcOut := some ((s.ports.frameIn.toList.take (len.toNat - 1)).foldl (fun crc b => romRead s.rom (crc ^^^ b)) 0x00#8)
      status := s.block.status ||| 0x08#8 } }) ∧
    (len = 1 → exec (.crc len) s = .next { s with block := { s.block with
      crcOut := some (romRead s.rom s.ports.frameIn[0])
      status := s.block.status ||| 0x08#8 } })

/-- The term CRC with LEN = 0 is no instruction of the encoding (R74, R75 (d)); the model's meaning gives it the outcome of its
word 0x02, an illegal request (log entry 8). -/
def Obligations.CrcOfLengthZeroIsIllegal : Prop :=
  decode (encode (.crc 0)) = .error .crcLenZero ∧
  ∀ s : State, exec (.crc 0) s = .next { s with block := { s.block with status := s.block.status ||| 0x10#8 } }

/-! ### ENC (spec/41_encode.md) -/

/-- R120 with R121, R122, R124, R125, R126 and R127: whatever CMD_IN and the state hold, ENC writes the nine bytes of the command
frame and TXV, and nothing else. -/
def Obligations.EncWritesCommandFrame : Prop :=
  decode 0x00#8 = .ok .enc ∧
  ∀ s : State, ∃ f : CmdFrame,
    exec .enc s = .next { s with block := { s.block with txFrame := some f, status := s.block.status ||| 0x01#8 } } ∧
    f[0] = 0xFF#8 ∧
    (∀ i : Fin 6, f.toList[1 + i.val]? = some (~~~(
      ((BitVec.ofBool (s.ports.cmdIn.getLsbD (10 * i + 9))).zeroExtend 8 <<< 7) |||
      ((BitVec.ofBool (s.ports.cmdIn.getLsbD (10 * i + 8))).zeroExtend 8 <<< 6) |||
      BitVec.ofNat 8 (min (s.ports.cmdIn.extractLsb' (10 * i) 8).toNat 63)))) ∧
    (∀ j : Fin 8, f[7].getLsbD j = s.ports.cmdIn.getLsbD (60 + j)) ∧
    checksum (romRead s.rom) f.toList = some f[8]

/-- R123: complementing byte 1+i of the frame again gives the clamped power, the lane change and the brake of car i. -/
def Obligations.ClampLaw : Prop :=
  ∀ (s : State) (i : Fin 6), ∃ (t : State) (f : CmdFrame) (wire : Byte),
    exec .enc s = .next t ∧ t.block.txFrame = some f ∧ f.toList[1 + i.val]? = some wire ∧
    (~~~wire &&& 0x3F#8).toNat = min (s.ports.cmdIn.extractLsb' (10 * i) 8).toNat 63 ∧
    (~~~wire).getLsbD 6 = s.ports.cmdIn.getLsbD (10 * i + 8) ∧
    (~~~wire).getLsbD 7 = s.ports.cmdIn.getLsbD (10 * i + 9)

/-- Program P1 of 95_test_vectors.md, for every command, table and state: a CRC with LEN = 9 over the frame that an ENC has just
made gives that frame's own last byte, so the frame is valid (R104), and leaves the frame where it was. -/
def Obligations.CrcOfEncodedFrameIsItsLastByte : Prop :=
  ∀ (s : State) (p : Ports), ∃ (t u : State) (f : CmdFrame),
    exec .enc s = .next t ∧ t.block.txFrame = some f ∧ frameValid (romRead s.rom) f.toList = true ∧
    (p.frameIn.toList.take 9 = f.toList →
      exec (.crc 9) { t with ports := p } = .next u ∧ u.block.crcOut = some f[8] ∧ u.block.txFrame = some f)

/-! ### DEC (spec/42_decode.md) -/

/-- R140, R141, R151: DEC with a checksum that passes writes every reply register, RHAS, RVALID and CHKERR, and nothing else; DEC
with one that fails writes RVALID and CHKERR, and nothing else. -/
def Obligations.DecAllOrNothing : Prop :=
  decode 0x01#8 = .ok .dec ∧
  ∀ s : State,
    (checksum (romRead s.rom) s.ports.frameIn.toList = some s.ports.frameIn[14] →
      ∃ ctrl : Vector (Option Byte) 6,
        exec .dec s = .next { s with block := { s.block with
          rStat := some (s.ports.frameIn[0] &&& 0x7F#8)
          rCtrl := ctrl
          rAux := some s.ports.frameIn[7]
          rLapCar := some (s.ports.frameIn[8] &&& 0x07#8)
          rLapMs := some (BitVec.ofNat 32 (4 * (s.ports.frameIn[9].toNat + 2 ^ 8 * s.ports.frameIn[10].toNat +
            2 ^ 16 * s.ports.frameIn[11].toNat + 2 ^ 24 * s.ports.frameIn[12].toNat) / 625))
          rBtn := some (~~~s.ports.frameIn[13] &&& 0x3F#8)
          rhas := true
          status := (s.block.status ||| 0x02#8) &&& ~~~0x04#8 } } ∧
        ∀ i : Fin 6, ∃ wire : Byte, s.ports.frameIn.toList[1 + i.val]? = some wire ∧
          ctrl[i] = some (if s.ports.frameIn[0].getLsbD (1 + i) then ~~~wire else 0x00)) ∧
    (checksum (romRead s.rom) s.ports.frameIn.toList ≠ some s.ports.frameIn[14] →
      exec .dec s = .next { s with block := { s.block with status := (s.block.status &&& ~~~0x02#8) ||| 0x04#8 } })

/-- R142, R143, R144, R145, R146: the registers after a DEC that passes and the ReplyState they hold, field by field, a
disconnected controller's register and fields zero and false whatever its wire byte. The lap time is R_LAPMS, whose value
LapTimeIsExactFloor states, and the buttons are in ButtonsAreActiveLow. -/
def Obligations.DecReplyStateFields : Prop :=
  ∀ s : State, checksum (romRead s.rom) s.ports.frameIn.toList = some s.ports.frameIn[14] →
    ∃ (t : State) (r : ReplyState), exec .dec s = .next t ∧ t.block.replyState = some r ∧
      t.block.rStat = some (s.ports.frameIn[0] &&& 0x7F#8) ∧
      r.trackPowered = s.ports.frameIn[0].getLsbD 0 ∧
      t.block.rAux = some s.ports.frameIn[7] ∧ r.auxPortCurrent = s.ports.frameIn[7] ∧
      t.block.rLapCar = some (s.ports.frameIn[8] &&& 0x07#8) ∧
      r.lastLapTime.carId.toNat = s.ports.frameIn[8].toNat % 8 ∧
      t.block.rLapMs = some r.lastLapTime.timeMs ∧
      ∀ i : Fin 6, ∃ wire : Byte, s.ports.frameIn.toList[1 + i.val]? = some wire ∧
        r.controllers[i].connected = s.ports.frameIn[0].getLsbD (1 + i) ∧
        (r.controllers[i].connected = true →
          t.block.rCtrl[i] = some (~~~wire) ∧
          r.controllers[i].throttlePosition.toNat = 63 - wire.toNat % 64 ∧
          r.controllers[i].laneChangePressed = !wire.getLsbD 6 ∧
          r.controllers[i].brakeButtonPressed = !wire.getLsbD 7) ∧
        (r.controllers[i].connected = false →
          t.block.rCtrl[i] = some 0x00#8 ∧
          r.controllers[i].throttlePosition = 0 ∧
          r.controllers[i].laneChangePressed = false ∧
          r.controllers[i].brakeButtonPressed = false)

/-- R9, R53, R147 and the first clause of R148: R_LAPMS, and with it lastLapTime.timeMs of the ReplyState (R35), is the floor of
`tc * 6.4 / 1000` over the rationals, tc the little-endian value of bytes 9 to 12, and it never exceeds 27487790. -/
def Obligations.LapTimeIsExactFloor : Prop :=
  ∀ s : State, checksum (romRead s.rom) s.ports.frameIn.toList = some s.ports.frameIn[14] →
    ∃ (t : State) (r : ReplyState) (ms : BitVec 32) (tc : Nat), exec .dec s = .next t ∧ t.block.rLapMs = some ms ∧
      t.block.replyState = some r ∧ r.lastLapTime.timeMs = ms ∧
      tc = s.ports.frameIn[9].toNat + 256 * s.ports.frameIn[10].toNat + 65536 * s.ports.frameIn[11].toNat +
        16777216 * s.ports.frameIn[12].toNat ∧
      (ms.toNat : Int) = ⌊(tc : Rat) * (64 / 10) / 1000⌋ ∧
      ms.toNat ≤ 27487790

/-- R86, R149: a button is pressed iff its bit of byte 13 is 0, which is the document's mask test, for each of the six. -/
def Obligations.ButtonsAreActiveLow : Prop :=
  ∀ s : State, checksum (romRead s.rom) s.ports.frameIn.toList = some s.ports.frameIn[14] →
    ∃ (t : State) (btn : Byte) (r : ReplyState), exec .dec s = .next t ∧ t.block.rBtn = some btn ∧
      t.block.replyState = some r ∧
      btn = ~~~s.ports.frameIn[13] &&& 0x3F#8 ∧
      (∀ k : Fin 6, btn.getLsbD k = !s.ports.frameIn[13].getLsbD k) ∧
      (r.startPressed = true ↔ ~~~s.ports.frameIn[13] &&& 0x01#8 = 0x01#8) ∧
      (r.rightPressed = true ↔ ~~~s.ports.frameIn[13] &&& 0x02#8 = 0x02#8) ∧
      (r.upPressed = true ↔ ~~~s.ports.frameIn[13] &&& 0x04#8 = 0x04#8) ∧
      (r.enterPressed = true ↔ ~~~s.ports.frameIn[13] &&& 0x08#8 = 0x08#8) ∧
      (r.leftPressed = true ↔ ~~~s.ports.frameIn[13] &&& 0x10#8 = 0x10#8) ∧
      (r.downPressed = true ↔ ~~~s.ports.frameIn[13] &&& 0x20#8 = 0x20#8)

/-- R150 with R88: two frames that differ only in ignored bits, both valid, leave the same block. -/
def Obligations.IgnoredReplyBitsDoNotMatter : Prop :=
  ∀ (s : State) (p q : Ports),
    checksum (romRead s.rom) p.frameIn.toList = some p.frameIn[14] →
    checksum (romRead s.rom) q.frameIn.toList = some q.frameIn[14] →
    p.frameIn[0] &&& 0x7F#8 = q.frameIn[0] &&& 0x7F#8 →
    (∀ i : Fin 6, p.frameIn[0].getLsbD (1 + i) = true → p.frameIn.toList[1 + i.val]? = q.frameIn.toList[1 + i.val]?) →
    p.frameIn[7] = q.frameIn[7] →
    p.frameIn[8] &&& 0x07#8 = q.frameIn[8] &&& 0x07#8 →
    p.frameIn[9] = q.frameIn[9] → p.frameIn[10] = q.frameIn[10] →
    p.frameIn[11] = q.frameIn[11] → p.frameIn[12] = q.frameIn[12] →
    p.frameIn[13] &&& 0x3F#8 = q.frameIn[13] &&& 0x3F#8 →
      ∃ b : Block, exec .dec { s with ports := p } = .next { s with ports := p, block := b } ∧
        exec .dec { s with ports := q } = .next { s with ports := q, block := b }

/-- W3 of 95_test_vectors.md: under every table, a valid frame with its last byte changed ends in ChecksumError, the reply
registers and RHAS as they were (R141, R171). -/
def Obligations.ChangedChecksumByteIsCaught : Prop :=
  ∀ (s : State) (p : Ports) (x : Byte),
    checksum (romRead s.rom) p.frameIn.toList = some p.frameIn[14] → x ≠ p.frameIn[14] →
      exec .dec { s with ports := { p with frameIn := p.frameIn.set 14 x } } =
        .next { s with
          ports := { p with frameIn := p.frameIn.set 14 x }
          block := { s.block with status := (s.block.status &&& ~~~0x02#8) ||| 0x04#8 } }

/-- R106 with R104 and R141, at the machine: under an injective table, a valid reply frame with any one covered byte changed ends
in ChecksumError, with no reply register written. -/
def Obligations.ChangedCoveredByteIsCaught : Prop :=
  ∀ (s : State) (p : Ports) (k : Fin 14) (x : Byte), CrcTableInjective (romRead s.rom) →
    checksum (romRead s.rom) p.frameIn.toList = some p.frameIn[14] → p.frameIn.toList[k.val]? ≠ some x →
      exec .dec { s with ports := { p with frameIn := p.frameIn.setIfInBounds k.val x } } =
        .next { s with
          ports := { p with frameIn := p.frameIn.setIfInBounds k.val x }
          block := { s.block with status := (s.block.status &&& ~~~0x02#8) ||| 0x04#8 } }

/-- Program P4 of 95_test_vectors.md, for every frame, table and state: CRC with LEN = 15 gives the byte that makes the frame pass
DEC, whatever byte 14 it was computed with. -/
def Obligations.CrcBuildsFrameThatDecodes : Prop :=
  ∀ s : State, ∃ (t u : State) (crc : Byte),
    exec (.crc 15) s = .next t ∧ t.block.crcOut = some crc ∧
    exec .dec { t with ports := { s.ports with frameIn := s.ports.frameIn.set 14 crc } } = .next u ∧
    getFlag u.block.status .rvalid = true ∧ getFlag u.block.status .chkerr = false ∧ u.block.rhas = true ∧
    u.block.crcOut = some crc ∧ u.block.rStat = some (s.ports.frameIn[0] &&& 0x7F#8)

/-! ### Frames and independence -/

/-- What each request leaves alone (R107, R108, R126, R151, R171): the ROM at every address and all the host holds, and of the
block every register, flag and hidden bit but those the operation names. -/
def Obligations.RequestLeavesTheRestAlone : Prop :=
  ∀ (i : Instr) (s t : State), i.wellFormed = true → exec i s = .next t →
    (∀ a : Byte, romRead t.rom a = romRead s.rom a) ∧ t.ports = s.ports ∧ t.pending = s.pending ∧
    t.readData = s.readData ∧ t.link = s.link ∧ t.block.status &&& 0xE0#8 = s.block.status &&& 0xE0#8 ∧
    match i with
    | .enc =>
      (∀ r : Reg, r ≠ .txFrame → r ≠ .status → readReg t.block r = readReg s.block r) ∧
      t.block.rhas = s.block.rhas ∧
      (∀ b : StatusBit, b ≠ .txv → getFlag t.block.status b = getFlag s.block.status b)
    | .dec =>
      (∀ r : Reg, r.isReply = false → r ≠ .status → readReg t.block r = readReg s.block r) ∧
      (∀ b : StatusBit, b ≠ .rvalid → b ≠ .chkerr → getFlag t.block.status b = getFlag s.block.status b) ∧
      (checksum (romRead s.rom) s.ports.frameIn.toList ≠ some s.ports.frameIn[14] →
        t.block.rhas = s.block.rhas ∧ ∀ r : Reg, r.isReply = true → readReg t.block r = readReg s.block r)
    | .crc _ =>
      (∀ r : Reg, r ≠ .crcOut → r ≠ .status → readReg t.block r = readReg s.block r) ∧
      t.block.rhas = s.block.rhas ∧
      (∀ b : StatusBit, b ≠ .crcv → getFlag t.block.status b = getFlag s.block.status b)

/-- R76: ENC ignores FRAME_IN, DEC ignores CMD_IN, CRC ignores CMD_IN and every byte of FRAME_IN it does not name, and an illegal
request reads no operand: the block after it is the same. -/
def Obligations.RequestReadsOnlyItsOperands : Prop :=
  ∀ (s : State) (p q : Ports),
    (p.cmdIn = q.cmdIn → ∃ b : Block,
      exec .enc { s with ports := p } = .next { s with ports := p, block := b } ∧
      exec .enc { s with ports := q } = .next { s with ports := q, block := b }) ∧
    (p.frameIn = q.frameIn → ∃ b : Block,
      exec .dec { s with ports := p } = .next { s with ports := p, block := b } ∧
      exec .dec { s with ports := q } = .next { s with ports := q, block := b }) ∧
    (∀ len : BitVec 4, len ≠ 0 → p.frameIn[0] = q.frameIn[0] →
      p.frameIn.toList.take (len.toNat - 1) = q.frameIn.toList.take (len.toNat - 1) → ∃ b : Block,
      exec (.crc len) { s with ports := p } = .next { s with ports := p, block := b } ∧
      exec (.crc len) { s with ports := q } = .next { s with ports := q, block := b }) ∧
    (∀ (w : Byte) (rest : List HostEvent) (c : IllegalWord), decode w = .error c → ∃ b : Block,
      step { s with pending := .request w p :: rest } = .next { s with pending := rest, ports := p, block := b } ∧
      step { s with pending := .request w q :: rest } = .next { s with pending := rest, ports := q, block := b })

/-- R40: an operand port keeps nothing from one request to the next: what the ports carried before a step changes neither the
step's block nor what it returns to the host. -/
def Obligations.OldOperandsLeaveNoTrace : Prop :=
  ∀ (s t : State) (p : Ports), step s = .next t →
    ∃ t' : State, step { s with ports := p } = .next t' ∧ t'.block = t.block ∧ t'.rom = t.rom ∧
      t'.pending = t.pending ∧ t'.readData = t.readData ∧ t'.link = t.link

/-- R23, R65: no request's result depends on what the registers held before it: from two blocks, the same request leaves the same
values in the registers it writes. -/
def Obligations.ResultsDoNotDependOnRegisters : Prop :=
  ∀ (i : Instr) (s : State) (b : Block), i.wellFormed = true → ∃ t u : State,
    exec i s = .next t ∧ exec i { s with block := b } = .next u ∧
      match i with
      | .enc => t.block.txFrame = u.block.txFrame ∧ t.block.txFrame.isSome = true
      | .crc _ => t.block.crcOut = u.block.crcOut ∧ t.block.crcOut.isSome = true
      | .dec =>
        getFlag t.block.status .rvalid = getFlag u.block.status .rvalid ∧
        getFlag t.block.status .chkerr = getFlag u.block.status .chkerr ∧
        (getFlag t.block.status .rvalid = true →
          ∀ r : Reg, r.isReply = true → readReg t.block r = readReg u.block r ∧ (readReg t.block r).isSome = true)

/-- R58: every request is idempotent: performing it again with the same operands changes nothing more. -/
def Obligations.RequestsAreIdempotent : Prop :=
  ∀ (i : Instr) (s : State), ∃ t : State, exec i s = .next t ∧ exec i t = .next t

/-! ### STATUS, RHAS and the whole machine -/

/-- R26 to R30 and R37: what one step does to each flag and to RHAS, for a request of any word, for RESET and for every other
action. TXV, CRCV, ILLEGAL and RHAS are set by their request and cleared by RESET alone; RVALID and CHKERR follow the last DEC. -/
def Obligations.FlagLaws : Prop :=
  ∀ (s t : State) (e : HostEvent) (rest : List HostEvent), s.pending = e :: rest → step s = .next t →
    match e with
    | .request w p =>
      let passes := decide (checksum (romRead s.rom) p.frameIn.toList = some p.frameIn[14])
      getFlag t.block.status .txv = (getFlag s.block.status .txv || w == 0x00#8) ∧
      getFlag t.block.status .crcv = (getFlag s.block.status .crcv || (w &&& 0x0F#8 == 0x02#8 && w != 0x02#8)) ∧
      getFlag t.block.status .illegal = (getFlag s.block.status .illegal ||
        !(w == 0x00#8 || w == 0x01#8 || (w &&& 0x0F#8 == 0x02#8 && w != 0x02#8))) ∧
      getFlag t.block.status .rvalid = (if w = 0x01#8 then passes else getFlag s.block.status .rvalid) ∧
      getFlag t.block.status .chkerr = (if w = 0x01#8 then !passes else getFlag s.block.status .chkerr) ∧
      t.block.rhas = (s.block.rhas || (w == 0x01#8 && passes))
    | .reset => (∀ b : StatusBit, getFlag t.block.status b = false) ∧ t.block.rhas = false
    | _ => (∀ b : StatusBit, getFlag t.block.status b = getFlag s.block.status b) ∧ t.block.rhas = s.block.rhas

/-- R24, R190: reset gives STATUS = 0x00, RHAS = 0 and no value in every data register, both at State.reset and when RESET is
applied between requests in any state. The ROM stays (R192); that the ports and what the host and the environment hold stay too is
the model's inference, log entry 15. -/
def Obligations.ResetClearsTheBlock : Prop :=
  let cleared : Block → Prop := fun b =>
    b.status = 0x00#8 ∧ b.rhas = false ∧ ∀ r : Reg, r ≠ .status → readReg b r = none
  cleared State.reset.block ∧
  ∀ (s : State) (rest : List HostEvent), s.pending = .reset :: rest →
    ∃ b : Block, step s = .next { s with pending := rest, block := b } ∧ cleared b

/-- R41, R192: the ROM holds CRC_TABLE after reset, and no step changes an entry of it, a RESET among them. -/
def Obligations.RomNeverChanges : Prop :=
  (∀ a : Byte, romRead State.reset.rom a = Config.crcTable a) ∧
  (∀ s t : State, step s = .next t → ∀ a : Byte, romRead t.rom a = romRead s.rom a)

/-- The invariant holds after reset. -/
def Obligations.ResetMeetsTheInvariant : Prop := State.reset.Inv

/-- The invariant of Sys2Proof/Safety.lean is kept by every step, from every state that meets it, whatever the host does: the valid
bits say which registers hold a value (R26 to R29, R36, R37), the reserved bits are 0 (R39), R_LAPMS is at most 27487790 (R35), what
TX_FRAME holds is a valid frame with byte 0 = 0xFF (R121, R125), and a disconnected controller reads 0x00 (R144). -/
def Obligations.StepKeepsTheInvariant : Prop :=
  ∀ s t : State, s.Inv → step s = .next t → t.Inv

/-! ### The host and the environment -/

/-- R36, R39, R54: a host read changes nothing but what the host has read, returns the whole register at its width (each register
the block's own field, its reserved bits 0), and stops with the reader's fault where the register holds no value; a host write is
refused. -/
def Obligations.HostRegisterAccess : Prop :=
  (∀ (s : State) (r : Reg) (rest : List HostEvent),
    (s.pending = .readReg r :: rest →
      match readReg s.block r with
      | some v => step s = .next { s with pending := rest, readData := some (r, v) }
      | none => step s = .fault (.noValue r)) ∧
    (s.pending = .writeReg r :: rest → step s = .refused (.noWriteTransaction r))) ∧
  (∀ b : Block,
    readReg b .status = some (.byte (b.status &&& 0x1F#8)) ∧
    (∀ f : CmdFrame, b.txFrame = some f → readReg b .txFrame = some (.frame f)) ∧
    (∀ v : Byte, b.rStat = some v → readReg b .rStat = some (.byte (v &&& 0x7F#8))) ∧
    (∀ (i : Fin 6) (v : Byte), b.rCtrl[i] = some v → readReg b (.rCtrl i) = some (.byte v)) ∧
    (∀ v : Byte, b.rAux = some v → readReg b .rAux = some (.byte v)) ∧
    (∀ v : Byte, b.rLapCar = some v → readReg b .rLapCar = some (.byte (v &&& 0x07#8))) ∧
    (∀ v : BitVec 32, b.rLapMs = some v → readReg b .rLapMs = some (.word v)) ∧
    (∀ v : Byte, b.rBtn = some v → readReg b .rBtn = some (.byte (v &&& 0x3F#8))) ∧
    (∀ v : Byte, b.crcOut = some v → readReg b .crcOut = some (.byte v))) ∧
  (∀ b : Block,
    (readReg b .txFrame = none ↔ b.txFrame = none) ∧
    (readReg b .rStat = none ↔ b.rStat = none) ∧
    (∀ i : Fin 6, readReg b (.rCtrl i) = none ↔ b.rCtrl[i] = none) ∧
    (readReg b .rAux = none ↔ b.rAux = none) ∧
    (readReg b .rLapCar = none ↔ b.rLapCar = none) ∧
    (readReg b .rLapMs = none ↔ b.rLapMs = none) ∧
    (readReg b .rBtn = none ↔ b.rBtn = none) ∧
    (readReg b .crcOut = none ↔ b.crcOut = none)) ∧
  (∀ b : Block,
    (∃ v : Byte, readReg b .status = some (.byte v) ∧ v &&& 0xE0#8 = 0) ∧
    (∀ v : Byte, readReg b .rStat = some (.byte v) → v &&& 0x80#8 = 0) ∧
    (∀ v : Byte, readReg b .rLapCar = some (.byte v) → v &&& 0xF8#8 = 0) ∧
    (∀ v : Byte, readReg b .rBtn = some (.byte v) → v &&& 0xC0#8 = 0))

/-- R24 and log entry 2: a read at a bus address is a read of the register that HOST_BUS places there, by its number of R24, and an
address of no register is refused; every register has its number of the table of R24. -/
def Obligations.BusReadIsRegisterRead : Prop :=
  (∀ r : Reg, Reg.ofNumber r.number = r) ∧ (∀ n : Fin 14, (Reg.ofNumber n).number = n) ∧
  (Reg.number .status = 0 ∧ Reg.number .txFrame = 1 ∧ Reg.number .rStat = 2 ∧
    (∀ i : Fin 6, (Reg.number (.rCtrl i)).val = 3 + i.val) ∧ Reg.number .rAux = 9 ∧ Reg.number .rLapCar = 10 ∧
    Reg.number .rLapMs = 11 ∧ Reg.number .rBtn = 12 ∧ Reg.number .crcOut = 13) ∧
  ∀ (s : State) (addr : Nat) (rest : List HostEvent), s.pending = .readBus addr :: rest →
    match Config.hostBus addr with
    | some n => step s = step { s with pending := .readReg (Reg.ofNumber n) :: rest }
    | none => step s = .refused (.notOnBus addr)

/-- R184 (c), (d), (e) and R191: where the invariant holds, a host that reads a register only where its valid bits allow it never
meets a register without a value. -/
def Obligations.DutifulReadNeverFaults : Prop :=
  ∀ (s : State) (r : Reg) (rest : List HostEvent), s.Inv → s.pending = .readReg r :: rest →
    s.block.mayRead r = true →
      ∃ v : RegValue, readReg s.block r = some v ∧
        step s = .next { s with pending := rest, readData := some (r, v) }

/-- R52, R182: sending appends TX_FRAME[0..8] to the link in index order and leaves the block as it was; with no value in TX_FRAME
it is the reader's fault (R36; the link field is the model's own, log entry 7). -/
def Obligations.TransmitSendsFrameInOrder : Prop :=
  ∀ (s : State) (rest : List HostEvent), s.pending = .transmit :: rest →
    (∀ f : CmdFrame, s.block.txFrame = some f → step s = .next { s with
      pending := rest, link := s.link ++ [f[0], f[1], f[2], f[3], f[4], f[5], f[6], f[7], f[8]] }) ∧
    (s.block.txFrame = none → step s = .fault (.noValue .txFrame))

/-- R58, R181, R182, R186: only a request or RESET changes the block; a read, a write attempt, a transmission and a link error leave
every part of it as it was. -/
def Obligations.OnlyRequestsAndResetChangeTheBlock : Prop :=
  ∀ (s t : State), step s = .next t → t.block ≠ s.block →
    ∃ rest : List HostEvent, s.pending = .reset :: rest ∨ ∃ (w : Byte) (p : Ports), s.pending = .request w p :: rest

/-- R91: what the assembler makes of each kind of line, and which lines it rejects. -/
def Obligations.AssemblerLines : Prop :=
  ∀ (dontCare : Ports) (bytes : List Byte),
    (∀ cmd : CommandState, ∃ p : Ports, assemble dontCare (.enc cmd) = some (.request 0x00#8 p) ∧
      CommandState.ofPort p.cmdIn = cmd) ∧
    (bytes.length = 15 → ∃ p : Ports, assemble dontCare (.dec bytes) = some (.request 0x01#8 p) ∧
      p.frameIn.toList = bytes) ∧
    (bytes.length ≠ 15 → assemble dontCare (.dec bytes) = none) ∧
    (∀ n : Nat, 1 ≤ n → n ≤ 15 → bytes.length = n → ∃ p : Ports,
      assemble dontCare (.crc n bytes) = some (.request (BitVec.ofNat 8 (16 * n + 2)) p) ∧
      p.frameIn.toList.take n = bytes) ∧
    (∀ n : Nat, n = 0 ∨ 15 < n ∨ bytes.length ≠ n → assemble dontCare (.crc n bytes) = none) ∧
    (∀ w : Byte, assemble dontCare (.req w) = some (.request w dontCare))

/-- R76 with R91: what an ENC, DEC or CRC line does to the block does not depend on the don't-care operands. -/
def Obligations.AssembledLineIgnoresDontCare : Prop :=
  ∀ (s : State) (x y : Ports) (line : AsmLine) (e f : HostEvent), (∀ w : Byte, line ≠ .req w) →
    assemble x line = some e → assemble y line = some f →
      ∃ t u : State, step { s with pending := [e] } = .next t ∧ step { s with pending := [f] } = .next u ∧
        t.block = u.block ∧ t.rom = u.rom
end

