-- ==== Sys2Proof/Laws/DataModel.lean ====
section
/-! SUPPORT. The bits of CMD_IN that holds a CommandState, car by car. -/

namespace Sys2Proof.Machine

/-- Two cars with the same fields are the same car. -/
theorem CarState.eq_of_fields {a b : CarState} (hp : a.power = b.power) (hb : a.brake = b.brake)
    (hl : a.laneChange = b.laneChange) : a = b := by
  obtain ⟨_, _, _⟩ := a
  obtain ⟨_, _, _⟩ := b
  cases hp; cases hb; cases hl; rfl

/-- POWER is in bits 7:0 of a car (R77). -/
theorem CarState.bits_power (c : CarState) {k : Nat} (hk : k < 8) : c.bits.getLsbD k = c.power.getLsbD k := by
  have h8 : ¬8 ≤ k := by omega
  have h9 : k < 9 := by omega
  have h10 : k < 10 := by omega
  simp [CarState.bits, hk, h9, h10]

/-- LANE is bit 8 of a car (R77). -/
theorem CarState.bits_lane (c : CarState) : c.bits.getLsbD 8 = c.laneChange := by
  simp [CarState.bits]

/-- BRAKE is bit 9 of a car (R77). -/
theorem CarState.bits_brake (c : CarState) : c.bits.getLsbD 9 = c.brake := by
  simp [CarState.bits]

/-- Car i of a CommandState is at bits 10i+9 to 10i of CMD_IN (R77). -/
theorem CommandState.toPort_car (c : CommandState) (i : Fin 6) {k : Nat} (hk : k < 10) :
    c.toPort.getLsbD (10 * i + k) = c.cars[i].bits.getLsbD k := by
  fin_cases i <;>
    simp only [CommandState.toPort, BitVec.getLsbD_or, BitVec.getLsbD_shiftLeft, BitVec.truncate_eq_setWidth,
      BitVec.getLsbD_setWidth] <;>
    interval_cases k <;> simp

/-- LED j of a CommandState is bit 60+j of CMD_IN (R77). -/
theorem CommandState.toPort_led (c : CommandState) (j : Fin 8) : c.toPort.getLsbD (60 + j) = c.leds[j] := by
  fin_cases j <;> simp [CommandState.toPort, CommandState.ledBits]

end Sys2Proof.Machine
end

