-- ==== Sys2Proof/Laws/Flags.lean ====
section
/-! SUPPORT. Reading a flag, and the reserved bits, after a flag has been written. -/

namespace Sys2Proof.Machine

theorem getFlag_setFlag (st : Byte) (b c : StatusBit) (v : Bool) :
    getFlag (setFlag st b v) c = if c = b then v else getFlag st c := by
  revert st v
  cases b <;> cases c <;> decide +kernel

@[simp] theorem getFlag_setFlag_self (st : Byte) (b : StatusBit) (v : Bool) : getFlag (setFlag st b v) b = v := by
  simp [getFlag_setFlag]

theorem getFlag_setFlag_of_ne {b c : StatusBit} (h : c ≠ b) (st : Byte) (v : Bool) :
    getFlag (setFlag st b v) c = getFlag st c := by
  simp [getFlag_setFlag, h]

/-- Writing a flag leaves STATUS bits 7:5 as they were. -/
@[simp] theorem setFlag_reserved (st : Byte) (b : StatusBit) (v : Bool) : setFlag st b v &&& 0xE0#8 = st &&& 0xE0#8 := by
  revert st v
  cases b <;> decide +kernel

/-! ### The flag computations as masks -/

theorem statusAfterEnc_eq (st : Byte) : statusAfterEnc st = st ||| 0x01 := rfl

theorem statusAfterCrc_eq (st : Byte) : statusAfterCrc st = st ||| 0x08 := rfl

theorem statusAfterDecode_eq (st : Byte) : statusAfterDecode st = (st ||| 0x02) &&& ~~~0x04 := rfl

theorem statusAfterChecksumError_eq (st : Byte) : statusAfterChecksumError st = (st &&& ~~~0x02) ||| 0x04 := rfl

theorem statusAfterIllegal_eq (st : Byte) : statusAfterIllegal st = st ||| 0x10 := rfl

/-! ### Every flag after every flag computation -/

@[simp] theorem getFlag_statusAfterEnc (st : Byte) (b : StatusBit) :
    getFlag (statusAfterEnc st) b = if b = .txv then true else getFlag st b := getFlag_setFlag st .txv b true

@[simp] theorem getFlag_statusAfterCrc (st : Byte) (b : StatusBit) :
    getFlag (statusAfterCrc st) b = if b = .crcv then true else getFlag st b := getFlag_setFlag st .crcv b true

@[simp] theorem getFlag_statusAfterIllegal (st : Byte) (b : StatusBit) :
    getFlag (statusAfterIllegal st) b = if b = .illegal then true else getFlag st b := getFlag_setFlag st .illegal b true

@[simp] theorem getFlag_statusAfterDecode (st : Byte) (b : StatusBit) :
    getFlag (statusAfterDecode st) b = if b = .rvalid then true else if b = .chkerr then false else getFlag st b := by
  cases b <;> simp [statusAfterDecode, getFlag_setFlag]

@[simp] theorem getFlag_statusAfterChecksumError (st : Byte) (b : StatusBit) :
    getFlag (statusAfterChecksumError st) b = if b = .rvalid then false else if b = .chkerr then true else getFlag st b := by
  cases b <;> simp [statusAfterChecksumError, getFlag_setFlag]

@[simp] theorem statusAfterEnc_reserved (st : Byte) : statusAfterEnc st &&& 0xE0#8 = st &&& 0xE0#8 := setFlag_reserved st _ _

@[simp] theorem statusAfterCrc_reserved (st : Byte) : statusAfterCrc st &&& 0xE0#8 = st &&& 0xE0#8 := setFlag_reserved st _ _

@[simp] theorem statusAfterIllegal_reserved (st : Byte) : statusAfterIllegal st &&& 0xE0#8 = st &&& 0xE0#8 :=
  setFlag_reserved st _ _

@[simp] theorem statusAfterDecode_reserved (st : Byte) : statusAfterDecode st &&& 0xE0#8 = st &&& 0xE0#8 := by
  simp [statusAfterDecode]

@[simp] theorem statusAfterChecksumError_reserved (st : Byte) : statusAfterChecksumError st &&& 0xE0#8 = st &&& 0xE0#8 := by
  simp [statusAfterChecksumError]

end Sys2Proof.Machine
end

