-- ==== Sys2Proof/Laws/State.lean ====
section
/-! SUPPORT. Every field after every named update of the block and of the state. -/

namespace Sys2Proof.Machine

/-! ### The block -/

@[simp] theorem Block.setStatus_status (b : Block) (v : Byte) : (b.setStatus v).status = v := rfl
@[simp] theorem Block.setStatus_txFrame (b : Block) (v : Byte) : (b.setStatus v).txFrame = b.txFrame := rfl
@[simp] theorem Block.setStatus_rStat (b : Block) (v : Byte) : (b.setStatus v).rStat = b.rStat := rfl
@[simp] theorem Block.setStatus_rCtrl (b : Block) (v : Byte) : (b.setStatus v).rCtrl = b.rCtrl := rfl
@[simp] theorem Block.setStatus_rAux (b : Block) (v : Byte) : (b.setStatus v).rAux = b.rAux := rfl
@[simp] theorem Block.setStatus_rLapCar (b : Block) (v : Byte) : (b.setStatus v).rLapCar = b.rLapCar := rfl
@[simp] theorem Block.setStatus_rLapMs (b : Block) (v : Byte) : (b.setStatus v).rLapMs = b.rLapMs := rfl
@[simp] theorem Block.setStatus_rBtn (b : Block) (v : Byte) : (b.setStatus v).rBtn = b.rBtn := rfl
@[simp] theorem Block.setStatus_crcOut (b : Block) (v : Byte) : (b.setStatus v).crcOut = b.crcOut := rfl
@[simp] theorem Block.setStatus_rhas (b : Block) (v : Byte) : (b.setStatus v).rhas = b.rhas := rfl

@[simp] theorem Block.setTxFrame_status (b : Block) (f : CmdFrame) : (b.setTxFrame f).status = b.status := rfl
@[simp] theorem Block.setTxFrame_txFrame (b : Block) (f : CmdFrame) : (b.setTxFrame f).txFrame = some f := rfl
@[simp] theorem Block.setTxFrame_rStat (b : Block) (f : CmdFrame) : (b.setTxFrame f).rStat = b.rStat := rfl
@[simp] theorem Block.setTxFrame_rCtrl (b : Block) (f : CmdFrame) : (b.setTxFrame f).rCtrl = b.rCtrl := rfl
@[simp] theorem Block.setTxFrame_rAux (b : Block) (f : CmdFrame) : (b.setTxFrame f).rAux = b.rAux := rfl
@[simp] theorem Block.setTxFrame_rLapCar (b : Block) (f : CmdFrame) : (b.setTxFrame f).rLapCar = b.rLapCar := rfl
@[simp] theorem Block.setTxFrame_rLapMs (b : Block) (f : CmdFrame) : (b.setTxFrame f).rLapMs = b.rLapMs := rfl
@[simp] theorem Block.setTxFrame_rBtn (b : Block) (f : CmdFrame) : (b.setTxFrame f).rBtn = b.rBtn := rfl
@[simp] theorem Block.setTxFrame_crcOut (b : Block) (f : CmdFrame) : (b.setTxFrame f).crcOut = b.crcOut := rfl
@[simp] theorem Block.setTxFrame_rhas (b : Block) (f : CmdFrame) : (b.setTxFrame f).rhas = b.rhas := rfl

@[simp] theorem Block.setCrcOut_status (b : Block) (v : Byte) : (b.setCrcOut v).status = b.status := rfl
@[simp] theorem Block.setCrcOut_txFrame (b : Block) (v : Byte) : (b.setCrcOut v).txFrame = b.txFrame := rfl
@[simp] theorem Block.setCrcOut_rStat (b : Block) (v : Byte) : (b.setCrcOut v).rStat = b.rStat := rfl
@[simp] theorem Block.setCrcOut_rCtrl (b : Block) (v : Byte) : (b.setCrcOut v).rCtrl = b.rCtrl := rfl
@[simp] theorem Block.setCrcOut_rAux (b : Block) (v : Byte) : (b.setCrcOut v).rAux = b.rAux := rfl
@[simp] theorem Block.setCrcOut_rLapCar (b : Block) (v : Byte) : (b.setCrcOut v).rLapCar = b.rLapCar := rfl
@[simp] theorem Block.setCrcOut_rLapMs (b : Block) (v : Byte) : (b.setCrcOut v).rLapMs = b.rLapMs := rfl
@[simp] theorem Block.setCrcOut_rBtn (b : Block) (v : Byte) : (b.setCrcOut v).rBtn = b.rBtn := rfl
@[simp] theorem Block.setCrcOut_crcOut (b : Block) (v : Byte) : (b.setCrcOut v).crcOut = some v := rfl
@[simp] theorem Block.setCrcOut_rhas (b : Block) (v : Byte) : (b.setCrcOut v).rhas = b.rhas := rfl

@[simp] theorem Block.setReply_status (b : Block) (st : Byte) (ct : Vector Byte 6) (a lc : Byte) (ms : BitVec 32) (bt : Byte) :
    (b.setReply st ct a lc ms bt).status = b.status := rfl
@[simp] theorem Block.setReply_txFrame (b : Block) (st : Byte) (ct : Vector Byte 6) (a lc : Byte) (ms : BitVec 32) (bt : Byte) :
    (b.setReply st ct a lc ms bt).txFrame = b.txFrame := rfl
@[simp] theorem Block.setReply_rStat (b : Block) (st : Byte) (ct : Vector Byte 6) (a lc : Byte) (ms : BitVec 32) (bt : Byte) :
    (b.setReply st ct a lc ms bt).rStat = some st := rfl
@[simp] theorem Block.setReply_rCtrl (b : Block) (st : Byte) (ct : Vector Byte 6) (a lc : Byte) (ms : BitVec 32) (bt : Byte) :
    (b.setReply st ct a lc ms bt).rCtrl = #v[some ct[0], some ct[1], some ct[2], some ct[3], some ct[4], some ct[5]] := rfl
@[simp] theorem Block.setReply_rAux (b : Block) (st : Byte) (ct : Vector Byte 6) (a lc : Byte) (ms : BitVec 32) (bt : Byte) :
    (b.setReply st ct a lc ms bt).rAux = some a := rfl
@[simp] theorem Block.setReply_rLapCar (b : Block) (st : Byte) (ct : Vector Byte 6) (a lc : Byte) (ms : BitVec 32) (bt : Byte) :
    (b.setReply st ct a lc ms bt).rLapCar = some lc := rfl
@[simp] theorem Block.setReply_rLapMs (b : Block) (st : Byte) (ct : Vector Byte 6) (a lc : Byte) (ms : BitVec 32) (bt : Byte) :
    (b.setReply st ct a lc ms bt).rLapMs = some ms := rfl
@[simp] theorem Block.setReply_rBtn (b : Block) (st : Byte) (ct : Vector Byte 6) (a lc : Byte) (ms : BitVec 32) (bt : Byte) :
    (b.setReply st ct a lc ms bt).rBtn = some bt := rfl
@[simp] theorem Block.setReply_crcOut (b : Block) (st : Byte) (ct : Vector Byte 6) (a lc : Byte) (ms : BitVec 32) (bt : Byte) :
    (b.setReply st ct a lc ms bt).crcOut = b.crcOut := rfl
@[simp] theorem Block.setReply_rhas (b : Block) (st : Byte) (ct : Vector Byte 6) (a lc : Byte) (ms : BitVec 32) (bt : Byte) :
    (b.setReply st ct a lc ms bt).rhas = true := rfl

/-! ### The state -/

@[simp] theorem State.setBlock_block (s : State) (b : Block) : (s.setBlock b).block = b := rfl
@[simp] theorem State.setBlock_rom (s : State) (b : Block) : (s.setBlock b).rom = s.rom := rfl
@[simp] theorem State.setBlock_ports (s : State) (b : Block) : (s.setBlock b).ports = s.ports := rfl
@[simp] theorem State.setBlock_pending (s : State) (b : Block) : (s.setBlock b).pending = s.pending := rfl
@[simp] theorem State.setBlock_readData (s : State) (b : Block) : (s.setBlock b).readData = s.readData := rfl
@[simp] theorem State.setBlock_link (s : State) (b : Block) : (s.setBlock b).link = s.link := rfl

@[simp] theorem State.setPorts_block (s : State) (p : Ports) : (s.setPorts p).block = s.block := rfl
@[simp] theorem State.setPorts_rom (s : State) (p : Ports) : (s.setPorts p).rom = s.rom := rfl
@[simp] theorem State.setPorts_ports (s : State) (p : Ports) : (s.setPorts p).ports = p := rfl
@[simp] theorem State.setPorts_pending (s : State) (p : Ports) : (s.setPorts p).pending = s.pending := rfl
@[simp] theorem State.setPorts_readData (s : State) (p : Ports) : (s.setPorts p).readData = s.readData := rfl
@[simp] theorem State.setPorts_link (s : State) (p : Ports) : (s.setPorts p).link = s.link := rfl

@[simp] theorem State.setPending_block (s : State) (l : List HostEvent) : (s.setPending l).block = s.block := rfl
@[simp] theorem State.setPending_rom (s : State) (l : List HostEvent) : (s.setPending l).rom = s.rom := rfl
@[simp] theorem State.setPending_ports (s : State) (l : List HostEvent) : (s.setPending l).ports = s.ports := rfl
@[simp] theorem State.setPending_pending (s : State) (l : List HostEvent) : (s.setPending l).pending = l := rfl
@[simp] theorem State.setPending_readData (s : State) (l : List HostEvent) :
    (s.setPending l).readData = s.readData := rfl
@[simp] theorem State.setPending_link (s : State) (l : List HostEvent) : (s.setPending l).link = s.link := rfl

@[simp] theorem State.setReadData_block (s : State) (r : Reg) (v : RegValue) :
    (s.setReadData r v).block = s.block := rfl
@[simp] theorem State.setReadData_rom (s : State) (r : Reg) (v : RegValue) : (s.setReadData r v).rom = s.rom := rfl
@[simp] theorem State.setReadData_ports (s : State) (r : Reg) (v : RegValue) :
    (s.setReadData r v).ports = s.ports := rfl
@[simp] theorem State.setReadData_pending (s : State) (r : Reg) (v : RegValue) :
    (s.setReadData r v).pending = s.pending := rfl
@[simp] theorem State.setReadData_readData (s : State) (r : Reg) (v : RegValue) :
    (s.setReadData r v).readData = some (r, v) := rfl
@[simp] theorem State.setReadData_link (s : State) (r : Reg) (v : RegValue) : (s.setReadData r v).link = s.link := rfl

@[simp] theorem State.sendBytes_block (s : State) (l : List Byte) : (s.sendBytes l).block = s.block := rfl
@[simp] theorem State.sendBytes_rom (s : State) (l : List Byte) : (s.sendBytes l).rom = s.rom := rfl
@[simp] theorem State.sendBytes_ports (s : State) (l : List Byte) : (s.sendBytes l).ports = s.ports := rfl
@[simp] theorem State.sendBytes_pending (s : State) (l : List Byte) : (s.sendBytes l).pending = s.pending := rfl
@[simp] theorem State.sendBytes_readData (s : State) (l : List Byte) : (s.sendBytes l).readData = s.readData := rfl
@[simp] theorem State.sendBytes_link (s : State) (l : List Byte) : (s.sendBytes l).link = s.link ++ l := rfl

@[simp] theorem State.applyReset_block (s : State) : (s.applyReset).block = Block.reset := rfl
@[simp] theorem State.applyReset_rom (s : State) : (s.applyReset).rom = s.rom := rfl
@[simp] theorem State.applyReset_ports (s : State) : (s.applyReset).ports = s.ports := rfl
@[simp] theorem State.applyReset_pending (s : State) : (s.applyReset).pending = s.pending := rfl
@[simp] theorem State.applyReset_readData (s : State) : (s.applyReset).readData = s.readData := rfl
@[simp] theorem State.applyReset_link (s : State) : (s.applyReset).link = s.link := rfl

end Sys2Proof.Machine
end

