-- ==== Sys2Proof/Laws/Ops.lean ====
section
/-! SUPPORT. One lemma per shared operation, saying what it can do, to be cited in place of its definition. -/

namespace Sys2Proof.Machine

/-! ### The checksum -/

@[simp] theorem checksumLoop_nil (T : Byte → Byte) (c : Byte) : checksumLoop T c [] = c := rfl

@[simp] theorem checksumLoop_singleton (T : Byte → Byte) (c b : Byte) : checksumLoop T c [b] = c := rfl

@[simp] theorem checksumLoop_cons_cons (T : Byte → Byte) (c b d : Byte) (l : List Byte) :
    checksumLoop T c (b :: d :: l) = checksumLoop T (T (c ^^^ b)) (d :: l) := rfl

/-- The loop is a fold over the bytes before the last. -/
theorem checksumLoop_eq_foldl (T : Byte → Byte) (c : Byte) (l : List Byte) :
    checksumLoop T c l = l.dropLast.foldl (fun c b => T (c ^^^ b)) c := by
  induction l generalizing c with
  | nil => rfl
  | cons b l ih =>
    cases l with
    | nil => rfl
    | cons d l => rw [checksumLoop_cons_cons, ih, List.dropLast_cons_cons, List.foldl_cons]

@[simp] theorem checksum_nil (T : Byte → Byte) : checksum T [] = none := rfl

@[simp] theorem checksum_cons (T : Byte → Byte) (b : Byte) (l : List Byte) :
    checksum T (b :: l) = some (checksumLoop T (T b) l) := rfl

/-- A buffer has a checksum iff it has a byte (R103). -/
theorem checksum_isSome (T : Byte → Byte) (l : List Byte) : (checksum T l).isSome = true ↔ l ≠ [] := by
  cases l <;> simp

/-- The checksum gate of DEC, as R141 writes it. -/
theorem replyPasses_iff (T : Byte → Byte) (f : ReplyFrame) :
    replyPasses T f = true ↔ checksum T f.toList = some f[14] := by
  have h : f.toList.getLast? = some f[14] := by
    rw [List.getLast?_eq_getElem?]; simp
  simp [replyPasses, frameValid, h]

/-! ### The error outcomes -/

@[simp] theorem raise_checksumError (b : Block) :
    raise .checksumError b = b.setStatus (statusAfterChecksumError b.status) := rfl

@[simp] theorem raise_illegal (b : Block) : raise .illegal b = b.setStatus (statusAfterIllegal b.status) := rfl

/-! ### What the operations do to the block -/

theorem encBlock_eq (T : Byte → Byte) (cmd : CmdPort) (b : Block) :
    encBlock T cmd b = { b with txFrame := some (commandFrame T cmd), status := statusAfterEnc b.status } := rfl

/-- The frame of ENC as a list: byte 0, the six cars, the LEDs and the checksum. -/
theorem commandFrame_toList (T : Byte → Byte) (cmd : CmdPort) :
    (commandFrame T cmd).toList =
      [0xFF, carWire cmd 0, carWire cmd 1, carWire cmd 2, carWire cmd 3, carWire cmd 4, carWire cmd 5, ledMask cmd,
        checksumFrom T 0xFF [carWire cmd 0, carWire cmd 1, carWire cmd 2, carWire cmd 3, carWire cmd 4, carWire cmd 5,
          ledMask cmd, 0x00]] := rfl

theorem decBlock_of_passes {T : Byte → Byte} {f : ReplyFrame} (h : replyPasses T f = true) (b : Block) :
    decBlock T f b = (writeReply f b).setStatus (statusAfterDecode b.status) := by
  simp [decBlock, h]

theorem decBlock_of_fails {T : Byte → Byte} {f : ReplyFrame} (h : replyPasses T f = false) (b : Block) :
    decBlock T f b = b.setStatus (statusAfterChecksumError b.status) := by
  simp [decBlock, h]

/-- The buffer of CRC is empty only for a length of 0. -/
theorem crcBuffer_eq_nil_iff (f : ReplyFrame) (len : BitVec 4) : crcBuffer f len = [] ↔ len = 0 := by
  have h : f.toList.length = 15 := by simp
  have h' : f.toList ≠ [] := by intro e; simp [e] at h
  simp only [crcBuffer, List.take_eq_nil_iff, h', or_false]
  exact ⟨fun e => BitVec.eq_of_toNat_eq (by simpa using e), fun e => by simp [e]⟩

theorem crcBlock_zero (T : Byte → Byte) (f : ReplyFrame) (b : Block) :
    crcBlock T f 0 b = b.setStatus (statusAfterIllegal b.status) := by
  rw [crcBlock, (crcBuffer_eq_nil_iff f 0).2 rfl]
  rfl

theorem crcBlock_of_checksum {T : Byte → Byte} {f : ReplyFrame} {len : BitVec 4} {crc : Byte}
    (h : checksum T (crcBuffer f len) = some crc) (b : Block) :
    crcBlock T f len b = (b.setCrcOut crc).setStatus (statusAfterCrc b.status) := by
  simp [crcBlock, h]

/-- CRC either writes CRC_OUT and CRCV or, for a length of 0 alone, is an illegal request. -/
theorem crcBlock_cases (T : Byte → Byte) (f : ReplyFrame) (len : BitVec 4) (b : Block) :
    (len = 0 ∧ crcBlock T f len b = b.setStatus (statusAfterIllegal b.status)) ∨
    (len ≠ 0 ∧ ∃ crc, checksum T (crcBuffer f len) = some crc ∧
      crcBlock T f len b = (b.setCrcOut crc).setStatus (statusAfterCrc b.status)) := by
  by_cases h : len = 0
  · subst h; exact .inl ⟨rfl, crcBlock_zero T f b⟩
  · have hs := (checksum_isSome T (crcBuffer f len)).2 (mt (crcBuffer_eq_nil_iff f len).1 h)
    obtain ⟨crc, hc⟩ := Option.isSome_iff_exists.1 hs
    exact .inr ⟨h, crc, hc, crcBlock_of_checksum hc b⟩

end Sys2Proof.Machine
end

