-- ==== Sys2Proof/Laws/Frames.lean ====
section
/-! SUPPORT. The two frames byte by byte, the lap ticks as a number, and the checksum gate of DEC. -/

namespace Sys2Proof.Machine

/-- A reply frame is its fifteen bytes. -/
theorem replyFrame_eta (f : ReplyFrame) :
    f = #v[f[0], f[1], f[2], f[3], f[4], f[5], f[6], f[7], f[8], f[9], f[10], f[11], f[12], f[13], f[14]] := by
  ext i hi
  interval_cases i <;> rfl

/-- A command frame is its nine bytes. -/
theorem cmdFrame_eta (f : CmdFrame) : f = #v[f[0], f[1], f[2], f[3], f[4], f[5], f[6], f[7], f[8]] := by
  ext i hi
  interval_cases i <;> rfl

/-- The covered bytes of a reply frame, and then its checksum byte (R101). -/
theorem replyFrame_toList_split (f : ReplyFrame) : f.toList = f.toList.take 14 ++ [f[14]] := by
  rw [replyFrame_eta f]; rfl

/-- Changing byte 14 leaves the covered bytes. -/
theorem replyFrame_set_last (f : ReplyFrame) (x : Byte) : (f.set 14 x).toList = f.toList.take 14 ++ [x] := by
  rw [replyFrame_eta f]; rfl

theorem replyFrame_covered_ne_nil (f : ReplyFrame) : f.toList.take 14 ≠ [] := by
  rw [replyFrame_eta f]; simp

@[simp] theorem ctrlByte_getElem? (f : ReplyFrame) (i : Fin 6) : f.toList[1 + i.val]? = some (ctrlByte f i) := by
  simp [ctrlByte]

theorem replyPasses_eq_false_iff (T : Byte → Byte) (f : ReplyFrame) :
    replyPasses T f = false ↔ checksum T f.toList ≠ some f[14] := by
  rw [← Bool.not_eq_true, replyPasses_iff]

/-- Placing a byte above all the bits of another adds them. -/
theorem or_shift_toNat {k : Nat} (x : BitVec 32) (b : Byte) (hx : x.toNat < 2 ^ k) (hk : k ≤ 24) :
    (x ||| (b.zeroExtend 32 <<< k)).toNat = x.toNat + 2 ^ k * b.toNat := by
  have hb := b.isLt
  have hp : 2 ^ k ≤ 2 ^ 24 := Nat.pow_le_pow_right (by norm_num) hk
  have hm : b.toNat * 2 ^ k < 2 ^ 32 := by
    calc b.toNat * 2 ^ k ≤ 255 * 2 ^ 24 := Nat.mul_le_mul (by omega) hp
      _ < 2 ^ 32 := by norm_num
  have hs : (b.zeroExtend 32 <<< k).toNat = b.toNat <<< k := by
    have hz : (b.zeroExtend 32).toNat = b.toNat := by rw [BitVec.toNat_setWidth]; omega
    rw [BitVec.toNat_shiftLeft, hz, Nat.shiftLeft_eq, Nat.mod_eq_of_lt hm]
  rw [BitVec.toNat_or, hs, Nat.or_comm, ← Nat.shiftLeft_add_eq_or_of_lt hx, Nat.shiftLeft_eq]
  ring

/-- tc as a number: bytes 9 to 12, the first the least significant (R53, R147). -/
theorem lapTicks_toNat (f : ReplyFrame) :
    (lapTicks f).toNat = f[9].toNat + 2 ^ 8 * f[10].toNat + 2 ^ 16 * f[11].toNat + 2 ^ 24 * f[12].toNat := by
  have h9 := f[9].isLt
  have h10 := f[10].isLt
  have h11 := f[11].isLt
  have h0 : (f[9].zeroExtend 32).toNat = f[9].toNat := by rw [BitVec.toNat_setWidth]; omega
  have h1 := or_shift_toNat (f[9].zeroExtend 32) f[10] (k := 8) (by omega) (by omega)
  have h2 := or_shift_toNat (f[9].zeroExtend 32 ||| (f[10].zeroExtend 32 <<< 8)) f[11] (k := 16) (by omega) (by omega)
  have h3 := or_shift_toNat (f[9].zeroExtend 32 ||| (f[10].zeroExtend 32 <<< 8) ||| (f[11].zeroExtend 32 <<< 16)) f[12]
    (k := 24) (by omega) (by omega)
  rw [lapTicks, h3, h2, h1, h0]

/-- Bit 8k+j of a frame read as one value is bit j of byte k (R78, R81). -/
theorem frameValue_getLsbD {n : Nat} (f : Vector Byte n) {k j : Nat} (hk : k < n) (hj : j < 8) :
    (frameValue f).getLsbD (8 * k + j) = f[k].getLsbD j := by
  have hd : (8 * k + j) / 8 = k := by omega
  have hm : (8 * k + j) % 8 = j := by omega
  simp [frameValue, hd, hm, show 8 * k + j < 8 * n by omega]

/-- Byte k of the frame of a value is bits 8k+7 to 8k of it (R78, R81). -/
@[simp] theorem frameOfValue_getElem {n : Nat} (v : BitVec (8 * n)) {k : Nat} (hk : k < n) :
    (frameOfValue v)[k] = v.extractLsb' (8 * k) 8 := by
  simp [frameOfValue]

/-- Every flag after a DEC, by whether the frame passes. -/
theorem getFlag_decBlock (T : Byte → Byte) (f : ReplyFrame) (b : Block) (c : StatusBit) :
    getFlag (decBlock T f b).status c =
      if c = .rvalid then replyPasses T f else if c = .chkerr then !replyPasses T f else getFlag b.status c := by
  cases hp : replyPasses T f
  · simp [decBlock_of_fails hp]
  · simp [decBlock_of_passes hp, writeReply]

end Sys2Proof.Machine
end

