-- ==== Sys2Proof/Laws/PerInstr.lean ====
section
/-! SUPPORT. What is said of every instruction, one lemma per constructor. -/

namespace Sys2Proof.Laws

/-- The fields of an encoded request (R70 to R74): OP names the operation, RSV is 00, LEN is the operand of CRC and 0 elsewhere. -/
def EncodedFields.Statement (i : Instr) : Prop :=
  rsvField (encode i) = 0 ∧
    match i with
    | .enc => opField (encode i) = 0b00#2 ∧ lenField (encode i) = 0
    | .dec => opField (encode i) = 0b01#2 ∧ lenField (encode i) = 0
    | .crc len => opField (encode i) = 0b10#2 ∧ lenField (encode i) = len

theorem EncodedFields.enc : EncodedFields.Statement .enc := by
  unfold EncodedFields.Statement
  decide

theorem EncodedFields.dec : EncodedFields.Statement .dec := by
  unfold EncodedFields.Statement
  decide

theorem EncodedFields.crc (len : BitVec 4) : EncodedFields.Statement (.crc len) := by
  revert len
  unfold EncodedFields.Statement
  decide

end Sys2Proof.Laws
end

