-- ==== Sys2Proof/Laws/Step.lean ====
section
/-! SUPPORT. What a step is for each kind of waiting action, and the one inversion lemma of a step. -/

namespace Sys2Proof.Machine

theorem step_idle {s : State} (h : s.pending = []) : step s = .next s := by
  simp [step, performNext, h]

theorem step_event {s : State} {e : HostEvent} {rest : List HostEvent} (h : s.pending = e :: rest) :
    step s = performEvent e (s.setPending rest) := by
  simp [step, performNext, h]

theorem exec_enc (s : State) : exec .enc s = .next (s.setBlock (encBlock (romRead s.rom) s.ports.cmdIn s.block)) := rfl

theorem exec_dec (s : State) : exec .dec s = .next (s.setBlock (decBlock (romRead s.rom) s.ports.frameIn s.block)) := rfl

theorem exec_crc (len : BitVec 4) (s : State) :
    exec (.crc len) s = .next (s.setBlock (crcBlock (romRead s.rom) s.ports.frameIn len s.block)) := rfl

/-- What a request word does to the block. -/
theorem performWord_eq (w : Byte) (s : State) :
    performWord w s = .next (s.setBlock
      (match decode w with
        | .ok .enc => encBlock (romRead s.rom) s.ports.cmdIn s.block
        | .ok .dec => decBlock (romRead s.rom) s.ports.frameIn s.block
        | .ok (.crc len) => crcBlock (romRead s.rom) s.ports.frameIn len s.block
        | .error _ => s.block.setStatus (statusAfterIllegal s.block.status))) := by
  unfold performWord
  split
  · next i hi => cases i <;> simp only [hi] <;> rfl
  · next e he => simp only [he]; rfl

/-- Everything a step that answers a next state can have done. -/
theorem step_cases {s t : State} (h : step s = .next t) :
    (s.pending = [] ∧ t = s) ∨
    ∃ e rest, s.pending = e :: rest ∧
      ((∃ w p, e = .request w p ∧ performWord w ((s.setPending rest).setPorts p) = .next t) ∨
       (e = .reset ∧ t = (s.setPending rest).applyReset) ∨
       (e ≠ .reset ∧ (∀ w p, e ≠ .request w p) ∧ t.block = s.block ∧ t.rom = s.rom ∧ t.ports = s.ports ∧
         t.pending = rest)) := by
  cases hp : s.pending with
  | nil =>
    rw [step_idle hp] at h
    injection h with h
    exact .inl ⟨rfl, h.symm⟩
  | cons e rest =>
    rw [step_event hp] at h
    refine .inr ⟨e, rest, rfl, ?_⟩
    have read : ∀ r, performRead r (s.setPending rest) = .next t →
        t.block = s.block ∧ t.rom = s.rom ∧ t.ports = s.ports ∧ t.pending = rest := by
      intro r h
      unfold performRead at h
      split at h
      · injection h with h; subst h; simp
      · cases h
    cases e with
    | request w p => exact .inl ⟨w, p, rfl, h⟩
    | reset => exact .inr (.inl ⟨rfl, by injection h with h; exact h.symm⟩)
    | readReg r => exact .inr (.inr ⟨by simp, by simp, read r h⟩)
    | readBus a =>
      refine .inr (.inr ⟨by simp, by simp, ?_⟩)
      simp only [performEvent, performBusRead] at h
      split at h
      · exact read _ h
      · cases h
    | writeReg r => cases h
    | transmit =>
      refine .inr (.inr ⟨by simp, by simp, ?_⟩)
      simp only [performEvent, performTransmit] at h
      split at h
      · injection h with h; subst h; simp
      · cases h
    | linkError x =>
      refine .inr (.inr ⟨by simp, by simp, ?_⟩)
      simp only [performEvent] at h
      injection h with h; subst h; simp

end Sys2Proof.Machine
end

