-- ==== Sys2Proof/Tests/Slice0.lean ====
section
/-! SUPPORT. Tests of the model against the words and vectors of spec/, and one witness for the premises of each statement. -/

namespace Sys2Proof.Tests

open Sys2Proof Sys2Proof.Machine

/-! ### The substitute table of 95_test_vectors.md section 1, and small states -/

/-- Row 0 of the table of 95_test_vectors.md section 1. -/
def t07Row0 : List Byte := [0x00, 0x07, 0x0E, 0x09, 0x1C, 0x1B, 0x12, 0x15, 0x38, 0x3F, 0x36, 0x31, 0x24, 0x23, 0x2A, 0x2D]

/-- Row 1 of the table of 95_test_vectors.md section 1. -/
def t07Row1 : List Byte := [0x70, 0x77, 0x7E, 0x79, 0x6C, 0x6B, 0x62, 0x65, 0x48, 0x4F, 0x46, 0x41, 0x54, 0x53, 0x5A, 0x5D]

/-- Row 2 of the table of 95_test_vectors.md section 1. -/
def t07Row2 : List Byte := [0xE0, 0xE7, 0xEE, 0xE9, 0xFC, 0xFB, 0xF2, 0xF5, 0xD8, 0xDF, 0xD6, 0xD1, 0xC4, 0xC3, 0xCA, 0xCD]

/-- Row 3 of the table of 95_test_vectors.md section 1. -/
def t07Row3 : List Byte := [0x90, 0x97, 0x9E, 0x99, 0x8C, 0x8B, 0x82, 0x85, 0xA8, 0xAF, 0xA6, 0xA1, 0xB4, 0xB3, 0xBA, 0xBD]

/-- Row 4 of the table of 95_test_vectors.md section 1. -/
def t07Row4 : List Byte := [0xC7, 0xC0, 0xC9, 0xCE, 0xDB, 0xDC, 0xD5, 0xD2, 0xFF, 0xF8, 0xF1, 0xF6, 0xE3, 0xE4, 0xED, 0xEA]

/-- Row 5 of the table of 95_test_vectors.md section 1. -/
def t07Row5 : List Byte := [0xB7, 0xB0, 0xB9, 0xBE, 0xAB, 0xAC, 0xA5, 0xA2, 0x8F, 0x88, 0x81, 0x86, 0x93, 0x94, 0x9D, 0x9A]

/-- Row 6 of the table of 95_test_vectors.md section 1. -/
def t07Row6 : List Byte := [0x27, 0x20, 0x29, 0x2E, 0x3B, 0x3C, 0x35, 0x32, 0x1F, 0x18, 0x11, 0x16, 0x03, 0x04, 0x0D, 0x0A]

/-- Row 7 of the table of 95_test_vectors.md section 1. -/
def t07Row7 : List Byte := [0x57, 0x50, 0x59, 0x5E, 0x4B, 0x4C, 0x45, 0x42, 0x6F, 0x68, 0x61, 0x66, 0x73, 0x74, 0x7D, 0x7A]

/-- Row 8 of the table of 95_test_vectors.md section 1. -/
def t07Row8 : List Byte := [0x89, 0x8E, 0x87, 0x80, 0x95, 0x92, 0x9B, 0x9C, 0xB1, 0xB6, 0xBF, 0xB8, 0xAD, 0xAA, 0xA3, 0xA4]

/-- Row 9 of the table of 95_test_vectors.md section 1. -/
def t07Row9 : List Byte := [0xF9, 0xFE, 0xF7, 0xF0, 0xE5, 0xE2, 0xEB, 0xEC, 0xC1, 0xC6, 0xCF, 0xC8, 0xDD, 0xDA, 0xD3, 0xD4]

/-- Row A of the table of 95_test_vectors.md section 1. -/
def t07RowA : List Byte := [0x69, 0x6E, 0x67, 0x60, 0x75, 0x72, 0x7B, 0x7C, 0x51, 0x56, 0x5F, 0x58, 0x4D, 0x4A, 0x43, 0x44]

/-- Row B of the table of 95_test_vectors.md section 1. -/
def t07RowB : List Byte := [0x19, 0x1E, 0x17, 0x10, 0x05, 0x02, 0x0B, 0x0C, 0x21, 0x26, 0x2F, 0x28, 0x3D, 0x3A, 0x33, 0x34]

/-- Row C of the table of 95_test_vectors.md section 1. -/
def t07RowC : List Byte := [0x4E, 0x49, 0x40, 0x47, 0x52, 0x55, 0x5C, 0x5B, 0x76, 0x71, 0x78, 0x7F, 0x6A, 0x6D, 0x64, 0x63]

/-- Row D of the table of 95_test_vectors.md section 1. -/
def t07RowD : List Byte := [0x3E, 0x39, 0x30, 0x37, 0x22, 0x25, 0x2C, 0x2B, 0x06, 0x01, 0x08, 0x0F, 0x1A, 0x1D, 0x14, 0x13]

/-- Row E of the table of 95_test_vectors.md section 1. -/
def t07RowE : List Byte := [0xAE, 0xA9, 0xA0, 0xA7, 0xB2, 0xB5, 0xBC, 0xBB, 0x96, 0x91, 0x98, 0x9F, 0x8A, 0x8D, 0x84, 0x83]

/-- Row F of the table of 95_test_vectors.md section 1. -/
def t07RowF : List Byte := [0xDE, 0xD9, 0xD0, 0xD7, 0xC2, 0xC5, 0xCC, 0xCB, 0xE6, 0xE1, 0xE8, 0xEF, 0xFA, 0xFD, 0xF4, 0xF3]

/-- The substitute table T07: not the device's table (95_test_vectors.md section 1). -/
def t07List : List Byte :=
  t07Row0 ++ t07Row1 ++ t07Row2 ++ t07Row3 ++ t07Row4 ++ t07Row5 ++ t07Row6 ++ t07Row7 ++
    t07Row8 ++ t07Row9 ++ t07RowA ++ t07RowB ++ t07RowC ++ t07RowD ++ t07RowE ++ t07RowF

/-- A ROM holding T07. -/
def t07 : Rom := ⟨⟨t07List⟩, by decide +kernel⟩

/-- A state with T07 in the ROM and the given block, operands and host actions. -/
def stateOf (b : Block) (p : Ports) (pending : List HostEvent) : State where
  block := b
  rom := t07
  ports := p
  pending := pending
  readData := none
  link := []

/-- Operands with only CMD_IN given. -/
def cmdPorts (c : CmdPort) : Ports := { cmdIn := c, frameIn := Vector.replicate 15 0 }

/-- Operands with only FRAME_IN given. -/
def framePorts (f : ReplyFrame) : Ports := { cmdIn := 0, frameIn := f }

/-- Frame D2 of 95_test_vectors.md section 3.3. -/
def d2 : ReplyFrame := #v[0x7F, 0xC0, 0x00, 0xFF, 0xBF, 0x7F, 0xE0, 0x12, 0xFD, 0x40, 0x42, 0x0F, 0x00, 0xFE, 0x26]

/-- Frame D4: D2 with byte 14 XOR 01. -/
def d4 : ReplyFrame := #v[0x7F, 0xC0, 0x00, 0xFF, 0xBF, 0x7F, 0xE0, 0x12, 0xFD, 0x40, 0x42, 0x0F, 0x00, 0xFE, 0x27]

/-- Frame D5: no controller connected, every ignored bit of byte 0 and byte 8 set, the largest tick count. -/
def d5 : ReplyFrame := #v[0x81, 0x3F, 0x3F, 0x3F, 0x3F, 0x3F, 0x3F, 0xFF, 0xFF, 0xFF, 0xFF, 0xFF, 0xFF, 0x3F, 0x4B]

/-- Frame D6: D2 with only ignored bits changed, and the checksum with them. -/
def d6 : ReplyFrame := #v[0xFF, 0xC0, 0x00, 0xFF, 0xBF, 0x7F, 0xE0, 0x12, 0x05, 0x40, 0x42, 0x0F, 0x00, 0x3E, 0xC1]

/-- The block after a DEC of D2 right after reset. -/
def afterD2 : Block := decBlock (romRead t07) d2 Block.reset

/-- What a step leaves, where it answers a next state. -/
def nextState : Host.Outcome State Fault Refusal → Option State
  | .next s => some s
  | _ => none

/-- The block a step leaves, where it answers a next state. -/
def nextBlock (o : Host.Outcome State Fault Refusal) : Option Block := (nextState o).map State.block

/-! ### Decoding: words written out from R70 to R75 -/

/-- R72: LEN = 0000, RSV = 00, OP = 00. -/
theorem test_decode_enc : decode 0b00000000 = .ok .enc := by decide

/-- R73: LEN = 0000, RSV = 00, OP = 01. -/
theorem test_decode_dec : decode 0b00000001 = .ok .dec := by decide

/-- R74: LEN = 1001, RSV = 00, OP = 10 (the word 0x92 of program P1). -/
theorem test_decode_crc : decode 0b10010010 = .ok (.crc 9) := by decide

/-- R75 and 95_test_vectors.md section 3.4: one word of each class. -/
theorem test_decode_illegal :
    decode 0x03 = .error .opReserved ∧ decode 0x04 = .error .rsvNonzero ∧ decode 0xF1 = .error .lenNonzero ∧
      decode 0x02 = .error .crcLenZero := by decide

/-- R74: CRC with LEN = 0 is not well formed. -/
theorem test_wellFormed_refuses_crc_zero : Instr.wellFormed (.crc 0) = false := by decide

/-- R72 to R74: the words the encoder gives. -/
theorem test_encode : encode .enc = 0x00 ∧ encode .dec = 0x01 ∧ encode (.crc 15) = 0xF2 := by decide

/-! ### One step of each request -/

/-- ENC, frame E2 of section 3.2: every kind of car byte, a clamp at 64 and at 255, LEDs 0xA5. -/
theorem test_enc_e2 :
    (nextBlock (step (stateOf Block.reset (cmdPorts 0) [.request 0x00 (cmdPorts 0xA500001881FF1033F)]))).bind Block.txFrame =
      some #v[0xFF, 0x00, 0xC0, 0x80, 0x5F, 0xFE, 0xFF, 0xA5, 0x1D] := by decide +kernel

/-- ENC, frame E3 of section 3.2: all LEDs on. -/
theorem test_enc_e3 :
    (nextBlock (exec .enc (stateOf Block.reset (cmdPorts 0xFF01764402000FC3E) []))).map (fun b => (b.txFrame, b.status)) =
      some (some #v[0xFF, 0xC1, 0xC0, 0x7F, 0xBF, 0x00, 0xFA, 0xFF, 0xD0], 0x01) := by decide +kernel

/-- DEC of D2 (section 3.3), every reply register and STATUS. -/
theorem test_dec_d2 :
    nextBlock (step (stateOf Block.reset (framePorts d5) [.request 0x01 (framePorts d2)])) =
      some { Block.reset with
        status := 0x02, rStat := some 0x7F
        rCtrl := #v[some 0x3F, some 0xFF, some 0x00, some 0x40, some 0x80, some 0x1F]
        rAux := some 0x12, rLapCar := some 5, rLapMs := some 6400, rBtn := some 0x01, rhas := true } := by decide +kernel

/-- DEC of D5 (section 3.3) after D2: nothing of D2 survives. -/
theorem test_dec_d5 :
    nextBlock (exec .dec (stateOf afterD2 (framePorts d5) [])) =
      some { Block.reset with
        status := 0x02, rStat := some 0x01
        rCtrl := #v[some 0x00, some 0x00, some 0x00, some 0x00, some 0x00, some 0x00]
        rAux := some 0xFF, rLapCar := some 7, rLapMs := some 27487790, rBtn := some 0x00, rhas := true } := by decide +kernel

/-- CRC 3, 01 02 AA (section 3.1). -/
theorem test_crc_3 :
    nextBlock (step (stateOf Block.reset (cmdPorts 0)
      [.request 0x32 (framePorts #v[0x01, 0x02, 0xAA, 0, 0, 0, 0, 0, 0, 0, 0, 0, 0, 0, 0])])) =
      some { Block.reset with status := 0x08, crcOut := some 0x1B } := by decide +kernel

/-- CRC 1, 01 (section 3.1): the only length that reads the last byte. -/
theorem test_crc_1 :
    nextBlock (exec (.crc 1) (stateOf Block.reset
      (framePorts #v[0x01, 0, 0, 0, 0, 0, 0, 0, 0, 0, 0, 0, 0, 0, 0]) [])) =
      some { Block.reset with status := 0x08, crcOut := some 0x07 } := by decide +kernel

/-- REQ 0x02 (program P3): an illegal word. -/
theorem test_illegal_word :
    nextBlock (step (stateOf afterD2 (cmdPorts 0) [.request 0x02 (framePorts d5)])) =
      some { afterD2 with status := 0x12 } := by decide +kernel

/-- A word placed before the machine at reset is the next thing it does, under any table. -/
theorem test_placed_word_runs_from_reset :
    (nextBlock (step (State.reset.withFetchWord 8 0x00))).map (fun b => b.status) = some 0x01 := by decide

/-! ### The host, the environment and the notation -/

/-- R36: a read right after reset is the reader's fault. -/
theorem test_read_without_value :
    (match step (stateOf Block.reset (cmdPorts 0) [.readReg .rAux]) with
      | .fault (.noValue .rAux) => true
      | _ => false) = true := by decide

/-- R78, R81: byte 0 is the lowest byte of the value and the checksum the highest (section 3.2, E2; section 3.3, D2). -/
theorem test_frame_as_one_value :
    cmdFrameValue #v[0xFF, 0x00, 0xC0, 0x80, 0x5F, 0xFE, 0xFF, 0xA5, 0x1D] = 0x1DA5FFFE5F80C000FF ∧
      (replyFrameValue d2).extractLsb' 0 8 = 0x7F#8 ∧ (replyFrameValue d2).extractLsb' 112 8 = 0x26#8 := by
  decide +kernel

/-- R77: POWER of car 1 is bits 17:10 of CMD_IN, LANE and BRAKE of car 0 bits 8 and 9, LED 7 bit 67. -/
theorem test_command_state_positions :
    (CommandState.ofPort 0x3FD00).cars[1].power = 0xFF ∧
      (CommandState.ofPort 0x3FD00).cars[0].laneChange = true ∧
      (CommandState.ofPort 0x3FD00).cars[0].brake = false ∧
      (CommandState.ofPort 0x80000000000000000).leds[7] = true := by decide +kernel

/-- R24, R54: a read after D2 gives the whole register. -/
theorem test_read_lap_time :
    (nextState (step (stateOf afterD2 (cmdPorts 0) [.readReg .rLapMs]))).bind State.readData =
      some (.rLapMs, .word 6400) := by decide +kernel

/-- R91 and program P1, line 1: the text of an ENC line and its CMD_IN (section 3.2, E2). -/
theorem test_assemble_enc :
    (parseLine "ENC  c0=(63,1,1) c1=(64,0,0) c2=(255,0,1) c3=(32,1,0) c4=(1,0,0) c5=(0,0,0) leds=0xA5".toList).bind
      (assemble (framePorts d5)) = some (.request 0x00 { cmdIn := 0xA500001881FF1033F, frameIn := d5 }) := by decide +kernel

/-- R91: a DEC line with a comment, and a CRC line. -/
theorem test_parse_dec_and_crc :
    parseLine "DEC  7F C0 00 FF BF 7F E0 12 FD 40 42 0F 00 FE 26 ; D2".toList = some (.dec d2.toList) ∧
      parseLine "CRC  3, 01 02 AA".toList = some (.crc 3 [0x01, 0x02, 0xAA]) ∧
      parseLine "REQ  0x03".toList = some (.req 0x03) := by decide +kernel

/-- R22, R91: three lines of program P3, one of them a comment. -/
theorem test_assemble_program :
    assembleProgram (framePorts d5) "REQ  0x03\n; sticky\nCRC  1, 01\n".toList =
      some [.request 0x03 (framePorts d5),
        .request 0x12 (framePorts #v[0x01, 0x3F, 0x3F, 0x3F, 0x3F, 0x3F, 0x3F, 0xFF, 0xFF, 0xFF, 0xFF, 0xFF, 0xFF, 0x3F, 0x4B])] := by
  decide +kernel

/-! ### Witnesses: for each statement with premises, a concrete case that meets all of them together -/

/-- T07 is a permutation (95_test_vectors.md section 1). -/
theorem t07_injective : CrcTableInjective (romRead t07) := by
  have h : ∀ a : Byte, t07List.findIdx (· == romRead t07 a) = a.toNat := by decide +kernel
  intro a b hab
  have ha := h a
  rw [hab, h b] at ha
  exact (BitVec.eq_of_toNat_eq ha).symm

theorem d2_passes : checksum (romRead t07) d2.toList = some d2[14] := by decide +kernel

theorem d4_fails : checksum (romRead t07) d4.toList ≠ some d4[14] := by decide +kernel

/-- StepRunsDecodedRequest, EveryRequestCompletes (each word class at its ends: 0x00, 0x01, 0x12, 0xF2, and illegal 0x02). -/
theorem witness_request_pending (w : Byte) :
    (stateOf afterD2 (cmdPorts 0) [.request w (framePorts d2)]).pending = [.request w (framePorts d2)] := rfl

theorem witness_request_words :
    decode 0x00 = .ok .enc ∧ decode 0x01 = .ok .dec ∧ decode 0x12 = .ok (.crc 1) ∧ decode 0xF2 = .ok (.crc 15) ∧
      decode 0x02 = .error .crcLenZero := by decide

/-- PlacedWordRuns. -/
theorem witness_placed_word : decodeTableWord 8 0xF2 = some (.crc 15) := by decide

/-- IdleStepChangesNothing. -/
theorem witness_idle : (stateOf afterD2 (cmdPorts 0) []).pending = [] := rfl

/-- IllegalWordSetsStickyIllegal, second clause: a request after ILLEGAL has been set. -/
theorem witness_sticky_illegal :
    getFlag ({ afterD2 with status := 0x12 } : Block).status .illegal = true ∧
      (nextState (step (stateOf { afterD2 with status := 0x12 } (cmdPorts 0) [.request 0x00 (cmdPorts 0)]))).isSome = true := by
  decide +kernel

/-- ChecksumFoldsCoveredBytes at its shortest buffer, ChecksumSkipsLastByte at one covered byte. -/
theorem witness_short_buffers : 2 ≤ [0x01#8, 0x02#8].length ∧ [0x01#8] ≠ [] := by decide

/-- InjectiveTableCatchesByteChange: a change of a covered byte before the last, and of a buffer's only byte. -/
theorem witness_byte_change :
    CrcTableInjective (romRead t07) ∧ ([0xAA#8] ≠ [] ∨ [0x01#8] = []) ∧ ([] ≠ ([] : List Byte) ∨ ([] : List Byte) = []) ∧
      (0x80#8) ≠ 0x81#8 :=
  ⟨t07_injective, by decide⟩

/-- InjectiveTableCatchesByteChange, last clause: D2 is valid and its last byte can change. -/
theorem witness_last_byte_change :
    frameValid (romRead t07) (d2.toList.take 14 ++ [0x26]) = true ∧ d2.toList.take 14 ≠ [] ∧ (0x26#8) ≠ 0x27#8 := by
  decide +kernel

/-- CrcWritesChecksum at the ends of both clauses. -/
theorem witness_crc_lengths : 2 ≤ (2#4).toNat ∧ 2 ≤ (15#4).toNat ∧ (1#4) = 1 ∧ ¬2 ≤ (1#4).toNat := by decide

/-- CrcOfEncodedFrameIsItsLastByte: the frame E2 on FRAME_IN. -/
theorem witness_encoded_frame_on_port :
    (framePorts #v[0xFF, 0x00, 0xC0, 0x80, 0x5F, 0xFE, 0xFF, 0xA5, 0x1D, 0, 0, 0, 0, 0, 0]).frameIn.toList.take 9 =
      (commandFrame (romRead t07) 0xA500001881FF1033F).toList := by decide +kernel

/-- DecAllOrNothing (pass and fail), DecReplyStateFields, LapTimeIsExactFloor, ButtonsAreActiveLow. -/
theorem witness_dec_premises :
    checksum (romRead (stateOf afterD2 (framePorts d2) []).rom) d2.toList = some d2[14] ∧
      checksum (romRead (stateOf afterD2 (framePorts d4) []).rom) d4.toList ≠ some d4[14] := ⟨d2_passes, d4_fails⟩

/-- DecReplyStateFields: D2 has every controller connected, D5 none. -/
theorem witness_connected_and_not : connected d2 0 = true ∧ connected d2 5 = true ∧ connected d5 0 = false ∧
    connected d5 5 = false ∧ checksum (romRead t07) d5.toList = some d5[14] := by decide +kernel

/-- IgnoredReplyBitsDoNotMatter: D2 and D6. -/
theorem witness_ignored_bits :
    checksum (romRead t07) d6.toList = some d6[14] ∧ d2[0] &&& 0x7F#8 = d6[0] &&& 0x7F#8 ∧
      (∀ i : Fin 6, d2[0].getLsbD (1 + i) = true → d2.toList[1 + i.val]? = d6.toList[1 + i.val]?) ∧ d2[7] = d6[7] ∧
      d2[8] &&& 0x07#8 = d6[8] &&& 0x07#8 ∧ d2[9] = d6[9] ∧ d2[10] = d6[10] ∧ d2[11] = d6[11] ∧ d2[12] = d6[12] ∧
      d2[13] &&& 0x3F#8 = d6[13] &&& 0x3F#8 ∧ d2 ≠ d6 := by decide +kernel

/-- ChangedChecksumByteIsCaught and ChangedCoveredByteIsCaught (its first and last covered byte). -/
theorem witness_changed_bytes :
    (0x27#8) ≠ d2[14] ∧ d2.toList[0]? ≠ some 0x7E#8 ∧ d2.toList[13]? ≠ some 0xFF#8 := by decide

/-- RequestLeavesTheRestAlone, ResultsDoNotDependOnRegisters: the instructions are well formed at the ends of LEN. -/
theorem witness_well_formed :
    Instr.enc.wellFormed = true ∧ Instr.dec.wellFormed = true ∧ (Instr.crc 1).wellFormed = true ∧
      (Instr.crc 15).wellFormed = true := by decide

/-- RequestLeavesTheRestAlone, OldOperandsLeaveNoTrace, RomNeverChanges: a step and an instruction that answer a next state. -/
theorem witness_next_state :
    (nextState (exec .dec (stateOf afterD2 (framePorts d4) []))).isSome = true ∧
      (nextState (step (stateOf afterD2 (framePorts d4) [.request 0x92 (framePorts d2)]))).isSome = true := by decide +kernel

/-- RequestReadsOnlyItsOperands: ports that differ only where ENC, DEC and CRC with LEN = 2 do not look. -/
theorem witness_ignored_operands :
    (framePorts d2).cmdIn = (framePorts d5).cmdIn ∧ (framePorts d2).frameIn = ({ cmdIn := 1, frameIn := d2 } : Ports).frameIn ∧
      (2#4) ≠ 0 ∧ d2[0] = d4[0] ∧ d2.toList.take ((2#4).toNat - 1) = d4.toList.take ((2#4).toNat - 1) := by decide

/-- FlagLaws: each kind of action answers a next state. -/
theorem witness_actions_answer :
    (nextState (step (stateOf afterD2 (cmdPorts 0) [.reset]))).isSome = true ∧
      (nextState (step (stateOf afterD2 (cmdPorts 0) [.readReg .rBtn]))).isSome = true ∧
      (nextState (step (stateOf afterD2 (cmdPorts 0) [.linkError .timeoutError]))).isSome = true := by decide +kernel

/-- OnlyRequestsAndResetChangeTheBlock: a step that does change it. -/
theorem witness_block_changes :
    nextBlock (step (stateOf afterD2 (cmdPorts 0) [.reset])) ≠ some afterD2 := by decide +kernel

/-- HostRegisterAccess, BusReadIsRegisterRead, TransmitSendsFrameInOrder, ResetClearsTheBlock: a state with each action waiting,
and TX_FRAME with and without a value. -/
theorem witness_waiting_actions :
    (stateOf afterD2 (cmdPorts 0) [.writeReg .rBtn]).pending = [.writeReg .rBtn] ∧
      (stateOf afterD2 (cmdPorts 0) [.readBus 0]).pending = [.readBus 0] ∧
      (stateOf afterD2 (cmdPorts 0) [.transmit]).pending = [.transmit] ∧ afterD2.txFrame = none ∧
      (encBlock (romRead t07) 0 afterD2).txFrame = some #v[0xFF, 0xFF, 0xFF, 0xFF, 0xFF, 0xFF, 0xFF, 0x00, 0x24] := by
  decide +kernel

/-- HostRegisterAccess: the four reserved-bit clauses, at a register that holds a value. -/
theorem witness_reserved_reads :
    readReg afterD2 .rStat = some (.byte 0x7F) ∧ readReg afterD2 .rLapCar = some (.byte 5) ∧
      readReg afterD2 .rBtn = some (.byte 1) := by decide +kernel

/-- The block after D2 and an ENC. -/
def afterD2Enc : Block := encBlock (romRead t07) 0 afterD2

/-- HostRegisterAccess: each clause on a register's value, at a block where that register holds one. -/
theorem witness_register_values :
    afterD2Enc.txFrame.isSome = true ∧ afterD2.rStat = some 0x7F ∧ (∀ i : Fin 6, afterD2.rCtrl[i].isSome = true) ∧
      afterD2.rAux = some 0x12 ∧ afterD2.rLapCar = some 5 ∧ afterD2.rLapMs = some 6400 ∧ afterD2.rBtn = some 1 ∧
      (crcBlock (romRead t07) d2 1 afterD2).crcOut.isSome = true := by decide +kernel

theorem afterD2Enc_flags : afterD2Enc.FlagsAgree := by
  refine ⟨by decide +kernel, by decide +kernel, ?_, by decide +kernel, by decide +kernel⟩
  intro r hr
  cases r with
  | status | txFrame | crcOut => cases hr
  | rCtrl i => clear hr; revert i; decide +kernel
  | _ => decide +kernel

theorem afterD2Enc_reserved : afterD2Enc.ReservedZero := by
  have hs : afterD2Enc.rStat = some 0x7F := by decide +kernel
  have hc : afterD2Enc.rLapCar = some 5 := by decide +kernel
  have hb : afterD2Enc.rBtn = some 1 := by decide +kernel
  have hm : afterD2Enc.rLapMs = some 6400 := by decide +kernel
  refine ⟨by decide +kernel, ?_, ?_, ?_, ?_⟩ <;> intro v hv
  · rw [hs] at hv; cases hv; decide
  · rw [hc] at hv; cases hv; decide
  · rw [hb] at hv; cases hv; decide
  · rw [hm] at hv; cases hv; decide

theorem afterD2Enc_contents : afterD2Enc.ContentsRight (romRead t07) := by
  have hf : afterD2Enc.txFrame = some #v[0xFF, 0xFF, 0xFF, 0xFF, 0xFF, 0xFF, 0xFF, 0x00, 0x24] := by decide +kernel
  have hs : afterD2Enc.rStat = some 0x7F := by decide +kernel
  refine ⟨?_, ?_, ?_⟩ <;> intro v hv
  · rw [hf] at hv; cases hv; decide
  · rw [hf] at hv; cases hv; decide +kernel
  · rw [hs] at hv; cases hv; decide

/-- StepKeepsTheInvariant, DutifulReadNeverFaults: the block after D2 and an ENC meets the invariant. -/
theorem witness_inv (p : Ports) (pending : List HostEvent) : (stateOf afterD2Enc p pending).Inv :=
  ⟨afterD2Enc_flags, afterD2Enc_reserved, afterD2Enc_contents⟩

/-- DutifulReadNeverFaults: what the host may read there, one register of each kind. -/
theorem witness_may_read :
    afterD2Enc.mayRead .status = true ∧ afterD2Enc.mayRead .txFrame = true ∧
      afterD2Enc.mayRead (.rCtrl 5) = true ∧ afterD2Enc.mayRead .rLapMs = true ∧
      (crcBlock (romRead t07) d2 1 afterD2).mayRead .crcOut = true := by decide +kernel

/-- AssemblerLines, AssembledLineIgnoresDontCare: lines the assembler takes and lines it rejects, at the ends of N. -/
theorem witness_assembler :
    d2.toList.length = 15 ∧ (d2.toList.take 1).length = 1 ∧ (assemble (cmdPorts 0) (.crc 1 [0x01])).isSome = true ∧
      (assemble (cmdPorts 0) (.crc 15 d2.toList)).isSome = true ∧ (assemble (cmdPorts 0) (.dec d2.toList)).isSome = true ∧
      (AsmLine.dec d2.toList ≠ .req 0x01) ∧ assemble (cmdPorts 0) (.crc 2 [0x01]) = none ∧
      assemble (cmdPorts 0) (.dec []) = none := by decide +kernel

end Sys2Proof.Tests
end

/-! ### The scope statements (spec/00_scope.md): the lap time of DEC and the request a step runs -/

namespace Sys2Proof.Machine

/-! #### The ReplyState that DEC leaves -/

/-- The ReplyState of given contents of the reply registers (R32 to R35). -/
def ReplyState.ofRegs (stat : Byte) (ctrl : Vector Byte 6) (aux lapCar : Byte) (lapMs : BitVec 32) (btn : Byte) :
    ReplyState where
  controllers := #v[controllerOfRegs stat ctrl[0] 0, controllerOfRegs stat ctrl[1] 1, controllerOfRegs stat ctrl[2] 2,
    controllerOfRegs stat ctrl[3] 3, controllerOfRegs stat ctrl[4] 4, controllerOfRegs stat ctrl[5] 5]
  auxPortCurrent := aux
  lastLapTime := { carId := lapCar.extractLsb' 0 3, timeMs := lapMs }
  startPressed := btn.getLsbD 0
  rightPressed := btn.getLsbD 1
  upPressed := btn.getLsbD 2
  enterPressed := btn.getLsbD 3
  leftPressed := btn.getLsbD 4
  downPressed := btn.getLsbD 5
  trackPowered := stat.getLsbD 0

@[simp] theorem Block.setReply_replyState (b : Block) (st : Byte) (ct : Vector Byte 6) (a lc : Byte) (ms : BitVec 32)
    (bt : Byte) : (b.setReply st ct a lc ms bt).replyState = some (ReplyState.ofRegs st ct a lc ms bt) := rfl

@[simp] theorem Block.setStatus_replyState (b : Block) (v : Byte) : (b.setStatus v).replyState = b.replyState := rfl

/-- DEC of a frame that passes the gate, with the gate as R141 writes it. -/
theorem exec_dec_of_checksum {s : State}
    (h : checksum (romRead s.rom) s.ports.frameIn.toList = some s.ports.frameIn[14]) :
    exec .dec s =
      .next (s.setBlock ((writeReply s.ports.frameIn s.block).setStatus (statusAfterDecode s.block.status))) := by
  rw [exec_dec, decBlock_of_passes ((replyPasses_iff _ _).2 h)]

/-! #### The lap time as a number -/

/-- The quotient of R148 fits R_LAPMS, so nothing of it is cut off. -/
theorem lapTimeMs_toNat (tc : BitVec 32) : (lapTimeMs tc).toNat = 4 * tc.toNat / 625 := by
  have htc := tc.isLt
  rw [lapTimeMs, BitVec.toNat_ofNat, Nat.mod_eq_of_lt (by omega)]

/-- R35: the greatest lap time, that of `tc = 2^32 - 1`. -/
theorem lapTimeMs_toNat_le (tc : BitVec 32) : (lapTimeMs tc).toNat ≤ 27487790 := by
  have htc := tc.isLt
  rw [lapTimeMs_toNat]
  omega

/-- The factor 6.4 / 1000 of R9 is 4 / 625 exactly, so the floor over the rationals is the division of R148. -/
theorem lapTimeMs_eq_floor (tc : BitVec 32) :
    ((lapTimeMs tc).toNat : Int) = ⌊(tc.toNat : Rat) * (64 / 10) / 1000⌋ := by
  have hfactor : (tc.toNat : Rat) * (64 / 10) / 1000 = ((4 * tc.toNat : Nat) : Rat) / (625 : Nat) := by
    push_cast
    ring
  rw [lapTimeMs_toNat, hfactor, Rat.floor_natCast_div_natCast, Int.natCast_ediv]

/-- Settles O21: DEC writes the lap time of the ticks of bytes 9 to 12, and that is the floor. -/
theorem lapTimeIsExactFloor : Obligations.LapTimeIsExactFloor := by
  intro s h
  refine ⟨_, _, _, (lapTicks s.ports.frameIn).toNat, exec_dec_of_checksum h, rfl, rfl, rfl, ?_,
    lapTimeMs_eq_floor _, lapTimeMs_toNat_le _⟩
  exact lapTicks_toNat s.ports.frameIn

/-! #### The request a step runs -/

/-- A word that decodes runs its instruction. -/
theorem performWord_of_decode {w : Byte} {i : Instr} (h : decode w = .ok i) (s : State) :
    performWord w s = exec i s := by
  simp [performWord, h]

/-- A waiting request is performed with its operands on the ports. -/
theorem step_request {s : State} {w : Byte} {p : Ports} {rest : List HostEvent}
    (h : s.pending = .request w p :: rest) : step s = performWord w ((s.setPending rest).setPorts p) :=
  step_event h

/-- Settles O6: the step performs the waiting word, and the word runs the instruction it decodes to. -/
theorem stepRunsDecodedRequest : Obligations.StepRunsDecodedRequest := by
  intro s w p rest i hpending hdecode
  calc step s = performWord w ((s.setPending rest).setPorts p) := step_request hpending
    _ = exec i ((s.setPending rest).setPorts p) := performWord_of_decode hdecode _

end Sys2Proof.Machine

/-! ### The state statements (spec/10_state.md): the invariant, the flags, the ports, reset and the host's accesses -/

namespace Sys2Proof.Machine

/-! #### Reading a register after a named update of the block -/

theorem readReg_setStatus_of_ne {r : Reg} (h : r ≠ .status) (b : Block) (v : Byte) :
    readReg (b.setStatus v) r = readReg b r := by
  cases r with
  | status => exact absurd rfl h
  | _ => rfl

theorem readReg_setTxFrame_of_ne {r : Reg} (h : r ≠ .txFrame) (b : Block) (f : CmdFrame) :
    readReg (b.setTxFrame f) r = readReg b r := by
  cases r with
  | txFrame => exact absurd rfl h
  | _ => rfl

theorem readReg_setCrcOut_of_ne {r : Reg} (h : r ≠ .crcOut) (b : Block) (v : Byte) :
    readReg (b.setCrcOut v) r = readReg b r := by
  cases r with
  | crcOut => exact absurd rfl h
  | _ => rfl

theorem Reg.ne_status_of_isReply {r : Reg} (h : r.isReply = true) : r ≠ .status := by rintro rfl; cases h

theorem Reg.ne_txFrame_of_isReply {r : Reg} (h : r.isReply = true) : r ≠ .txFrame := by rintro rfl; cases h

theorem Reg.ne_crcOut_of_isReply {r : Reg} (h : r.isReply = true) : r ≠ .crcOut := by rintro rfl; cases h

/-- STATUS always holds a value, so writing it changes no register's holding one. -/
@[simp] theorem Block.holds_setStatus (b : Block) (v : Byte) (r : Reg) : (b.setStatus v).holds r = b.holds r := by
  cases r <;> rfl

/-! #### The reply registers after a DEC that passes -/

@[simp] theorem writeReply_status (f : ReplyFrame) (b : Block) : (writeReply f b).status = b.status := rfl
@[simp] theorem writeReply_txFrame (f : ReplyFrame) (b : Block) : (writeReply f b).txFrame = b.txFrame := rfl
@[simp] theorem writeReply_crcOut (f : ReplyFrame) (b : Block) : (writeReply f b).crcOut = b.crcOut := rfl
@[simp] theorem writeReply_rhas (f : ReplyFrame) (b : Block) : (writeReply f b).rhas = true := rfl

theorem writeReply_rCtrl (f : ReplyFrame) (b : Block) (i : Fin 6) :
    (writeReply f b).rCtrl[i] = some (ctrlValue f i) := by
  fin_cases i <;> rfl

/-- A DEC that passes overwrites every reply register, so what the block held there before is gone (R23). -/
theorem readReg_writeReply {r : Reg} (h : r.isReply = true) (f : ReplyFrame) (b c : Block) :
    readReg (writeReply f b) r = readReg (writeReply f c) r := by
  cases r with
  | status | txFrame | crcOut => cases h
  | _ => rfl

theorem holds_writeReply {r : Reg} (h : r.isReply = true) (f : ReplyFrame) (b : Block) :
    (writeReply f b).holds r = true := by
  cases r with
  | status | txFrame | crcOut => cases h
  | rCtrl i => rw [Block.holds, readReg, writeReply_rCtrl]; rfl
  | _ => rfl

/-- R_STAT keeps the connected flags of reply byte 0. -/
theorem rStat_connected (f : ReplyFrame) (i : Fin 6) : (f[0] &&& 0x7F#8).getLsbD (1 + i) = connected f i := by
  have hmask : (0x7F#8).getLsbD (1 + i) = true := by revert i; decide
  rw [BitVec.getLsbD_and, hmask, Bool.and_true, connected]

/-- A mask clears every bit outside it. -/
theorem and_and_of_disjoint {m n : Byte} (h : m &&& n = 0) (v : Byte) : v &&& m &&& n = 0 := by
  rw [BitVec.and_assoc, h]
  exact BitVec.and_zero

/-! #### What a request word does, case by case -/

/-- The block `c` that a request of the word `w` leaves of the block `b`: one case per outcome of R170. -/
inductive RequestEffect (T : Byte → Byte) (p : Ports) (w : Byte) (b : Block) : Block → Prop
  | enc (hw : decode w = .ok .enc) :
    RequestEffect T p w b ((b.setTxFrame (commandFrame T p.cmdIn)).setStatus (statusAfterEnc b.status))
  | decPasses (hw : decode w = .ok .dec) (hp : replyPasses T p.frameIn = true) :
    RequestEffect T p w b ((writeReply p.frameIn b).setStatus (statusAfterDecode b.status))
  | decFails (hw : decode w = .ok .dec) (hp : replyPasses T p.frameIn = false) :
    RequestEffect T p w b (b.setStatus (statusAfterChecksumError b.status))
  | crc {len : BitVec 4} {v : Byte} (hw : decode w = .ok (.crc len))
      (hv : checksum T (crcBuffer p.frameIn len) = some v) :
    RequestEffect T p w b ((b.setCrcOut v).setStatus (statusAfterCrc b.status))
  | illegal {c : IllegalWord} (hw : decode w = .error c) :
    RequestEffect T p w b (b.setStatus (statusAfterIllegal b.status))

/-- R74: the decoder reads no CRC with LEN = 0. -/
theorem len_ne_zero_of_decode {w : Byte} {len : BitVec 4} (h : decode w = .ok (.crc len)) : len ≠ 0 := by
  rintro rfl
  revert w
  decide +kernel

/-- An illegal word sets ILLEGAL and does nothing else (R172). -/
theorem performWord_of_error {w : Byte} {c : IllegalWord} (h : decode w = .error c) (s : State) :
    performWord w s = .next (s.setBlock (s.block.setStatus (statusAfterIllegal s.block.status))) := by
  simp [performWord, h]

/-- Every request word has one of the effects above, and changes nothing outside the block. -/
theorem performWord_effect (w : Byte) (s : State) :
    ∃ c, RequestEffect (romRead s.rom) s.ports w s.block c ∧ performWord w s = .next (s.setBlock c) := by
  cases hw : decode w with
  | error e => exact ⟨_, .illegal hw, performWord_of_error hw s⟩
  | ok i =>
    rw [performWord_of_decode hw]
    cases i with
    | enc => exact ⟨_, .enc hw, exec_enc s⟩
    | dec =>
      rw [exec_dec]
      cases hp : replyPasses (romRead s.rom) s.ports.frameIn with
      | true => exact ⟨_, .decPasses hw hp, by rw [decBlock_of_passes hp]⟩
      | false => exact ⟨_, .decFails hw hp, by rw [decBlock_of_fails hp]⟩
    | crc len =>
      rw [exec_crc]
      obtain ⟨hlen, -⟩ | ⟨-, v, hv, hblock⟩ :=
        crcBlock_cases (romRead s.rom) s.ports.frameIn len s.block
      · exact absurd hlen (len_ne_zero_of_decode hw)
      · exact ⟨_, .crc hw hv, by rw [hblock]⟩

/-! #### The invariant, part by part -/

/-- The invariant as a property of the block and the ROM's contents, which is all that it speaks of. -/
structure Block.Sound (T : Byte → Byte) (b : Block) : Prop where
  flags : b.FlagsAgree
  reserved : b.ReservedZero
  contents : b.ContentsRight T

theorem State.inv_iff_sound (s : State) : s.Inv ↔ s.block.Sound (romRead s.rom) :=
  ⟨fun ⟨hf, hr, hc⟩ => ⟨hf, hr, hc⟩, fun ⟨hf, hr, hc⟩ => ⟨hf, hr, hc⟩⟩

theorem Block.ReservedZero.setStatus {b : Block} (h : b.ReservedZero) {v : Byte} (hv : v &&& 0xE0#8 = 0) :
    (b.setStatus v).ReservedZero :=
  ⟨hv, h.rStat, h.rLapCar, h.rBtn, h.rLapMs⟩

theorem Block.ReservedZero.setTxFrame {b : Block} (h : b.ReservedZero) (f : CmdFrame) :
    (b.setTxFrame f).ReservedZero :=
  ⟨h.status, h.rStat, h.rLapCar, h.rBtn, h.rLapMs⟩

theorem Block.ReservedZero.setCrcOut {b : Block} (h : b.ReservedZero) (v : Byte) : (b.setCrcOut v).ReservedZero :=
  ⟨h.status, h.rStat, h.rLapCar, h.rBtn, h.rLapMs⟩

/-- The masks of R142, R146 and R149 clear the reserved bits, and R148 bounds the lap time. -/
theorem Block.ReservedZero.writeReply {b : Block} (h : b.ReservedZero) (f : ReplyFrame) :
    (writeReply f b).ReservedZero where
  status := h.status
  rStat := by rintro v ⟨⟩; exact and_and_of_disjoint (by decide) _
  rLapCar := by rintro v ⟨⟩; exact and_and_of_disjoint (by decide) _
  rBtn := by rintro v ⟨⟩; exact and_and_of_disjoint (by decide) _
  rLapMs := by rintro v ⟨⟩; exact lapTimeMs_toNat_le _

theorem Block.ContentsRight.setStatus {T : Byte → Byte} {b : Block} (h : b.ContentsRight T) (v : Byte) :
    (b.setStatus v).ContentsRight T :=
  ⟨h.ack, h.valid, h.disconnected⟩

theorem Block.ContentsRight.setCrcOut {T : Byte → Byte} {b : Block} (h : b.ContentsRight T) (v : Byte) :
    (b.setCrcOut v).ContentsRight T :=
  ⟨h.ack, h.valid, h.disconnected⟩

/-- R125: the checksum byte of ENC was computed over a placeholder, which the checksum does not read (R101). -/
theorem frameValid_commandFrame (T : Byte → Byte) (cmd : CmdPort) :
    frameValid T (commandFrame T cmd).toList = true := by
  simp [frameValid, commandFrame_toList, checksumFrom]

theorem Block.ContentsRight.setTxFrame {T : Byte → Byte} {b : Block} (h : b.ContentsRight T) (cmd : CmdPort) :
    (b.setTxFrame (commandFrame T cmd)).ContentsRight T where
  ack := by rintro f ⟨⟩; rfl
  valid := by rintro f ⟨⟩; exact frameValid_commandFrame T cmd
  disconnected := h.disconnected

theorem Block.ContentsRight.writeReply {T : Byte → Byte} {b : Block} (h : b.ContentsRight T) (f : ReplyFrame) :
    (writeReply f b).ContentsRight T where
  ack := h.ack
  valid := h.valid
  disconnected := by
    rintro v ⟨⟩ i hi c hc
    rw [rStat_connected] at hi
    rw [writeReply_rCtrl, Option.mem_some_iff] at hc
    simp [← hc, ctrlValue, hi]

/-- ENC sets TXV together with TX_FRAME. -/
theorem Block.FlagsAgree.enc {b : Block} (h : b.FlagsAgree) (f : CmdFrame) :
    ((b.setTxFrame f).setStatus (statusAfterEnc b.status)).FlagsAgree where
  txv := by simp
  crcv := by simpa using h.crcv
  rhas r hr := by
    rw [holds_setStatus, holds, readReg_setTxFrame_of_ne (Reg.ne_txFrame_of_isReply hr)]
    exact h.rhas r hr
  rvalid := by simpa using h.rvalid
  chkerr := by simpa using h.chkerr

/-- CRC sets CRCV together with CRC_OUT. -/
theorem Block.FlagsAgree.crc {b : Block} (h : b.FlagsAgree) (v : Byte) :
    ((b.setCrcOut v).setStatus (statusAfterCrc b.status)).FlagsAgree where
  txv := by simpa using h.txv
  crcv := by simp
  rhas r hr := by
    rw [holds_setStatus, holds, readReg_setCrcOut_of_ne (Reg.ne_crcOut_of_isReply hr)]
    exact h.rhas r hr
  rvalid := by simpa using h.rvalid
  chkerr := by simpa using h.chkerr

/-- A DEC that passes sets RVALID and RHAS together with the reply registers, and clears CHKERR. -/
theorem Block.FlagsAgree.decPasses {b : Block} (h : b.FlagsAgree) (f : ReplyFrame) :
    ((Machine.writeReply f b).setStatus (statusAfterDecode b.status)).FlagsAgree where
  txv := by simpa using h.txv
  crcv := by simpa using h.crcv
  rhas r hr := by rw [holds_setStatus, holds_writeReply hr]; rfl
  rvalid := by simp
  chkerr := by simp

/-- A DEC that fails sets CHKERR and clears RVALID, over the reply registers as they were. -/
theorem Block.FlagsAgree.decFails {b : Block} (h : b.FlagsAgree) :
    (b.setStatus (statusAfterChecksumError b.status)).FlagsAgree where
  txv := by simpa using h.txv
  crcv := by simpa using h.crcv
  rhas r hr := by rw [holds_setStatus]; exact h.rhas r hr
  rvalid := by simp
  chkerr := by simp

/-- ILLEGAL says nothing of the registers. -/
theorem Block.FlagsAgree.illegal {b : Block} (h : b.FlagsAgree) :
    (b.setStatus (statusAfterIllegal b.status)).FlagsAgree where
  txv := by simpa using h.txv
  crcv := by simpa using h.crcv
  rhas r hr := by rw [holds_setStatus]; exact h.rhas r hr
  rvalid := by simpa using h.rvalid
  chkerr := by simpa using h.chkerr

/-- A request of any word keeps the invariant. -/
theorem RequestEffect.sound {T : Byte → Byte} {p : Ports} {w : Byte} {b c : Block} (he : RequestEffect T p w b c)
    (h : b.Sound T) : c.Sound T := by
  obtain ⟨hf, hr, hc⟩ := h
  have status : b.status &&& 0xE0#8 = 0 := hr.status
  cases he with
  | enc => exact ⟨hf.enc _, (hr.setTxFrame _).setStatus (by simpa), (hc.setTxFrame _).setStatus _⟩
  | decPasses => exact ⟨hf.decPasses _, (hr.writeReply _).setStatus (by simpa), (hc.writeReply _).setStatus _⟩
  | decFails => exact ⟨hf.decFails, hr.setStatus (by simpa), hc.setStatus _⟩
  | crc => exact ⟨hf.crc _, (hr.setCrcOut _).setStatus (by simpa), (hc.setCrcOut _).setStatus _⟩
  | illegal => exact ⟨hf.illegal, hr.setStatus (by simpa), hc.setStatus _⟩

/-! #### The block after reset -/

/-- R24, R190: no register but STATUS holds a value after reset. -/
theorem readReg_reset {r : Reg} (h : r ≠ .status) : readReg Block.reset r = none := by
  cases r with
  | status => exact absurd rfl h
  | rCtrl i => fin_cases i <;> rfl
  | _ => rfl

theorem getFlag_reset (b : StatusBit) : getFlag Block.reset.status b = false := by
  cases b <;> rfl

theorem Block.sound_reset (T : Byte → Byte) : Block.reset.Sound T where
  flags := by
    refine ⟨rfl, rfl, fun r hr => ?_, by simp [getFlag_reset], by simp [getFlag_reset]⟩
    rw [holds, readReg_reset (Reg.ne_status_of_isReply hr)]
    rfl
  reserved := ⟨rfl, nofun, nofun, nofun, nofun⟩
  contents := ⟨nofun, nofun, nofun⟩

/-- Settles O36: each effect of a request keeps the invariant, RESET establishes it, and every other action leaves the block
and the ROM, of which alone it speaks. -/
theorem stepKeepsTheInvariant : Obligations.StepKeepsTheInvariant := by
  intro s t hs hstep
  rw [State.inv_iff_sound] at hs ⊢
  obtain ⟨-, rfl⟩ | ⟨e, rest, -, ⟨w, p, -, hw⟩ | ⟨-, rfl⟩ | ⟨-, -, hblock, hrom, -, -⟩⟩ := step_cases hstep
  · exact hs
  · obtain ⟨c, heffect, hnext⟩ := performWord_effect w ((s.setPending rest).setPorts p)
    rw [hnext] at hw
    cases hw
    exact heffect.sound hs
  · exact Block.sound_reset _
  · rw [hblock, hrom]
    exact hs


/-! #### What each kind of action does -/

/-- What a request of any word answers, the operands and the list being the request's own. -/
theorem step_request_effect {s : State} {w : Byte} {p : Ports} {rest : List HostEvent}
    (h : s.pending = .request w p :: rest) :
    ∃ c, RequestEffect (romRead s.rom) p w s.block c ∧
      step s = .next (((s.setPending rest).setPorts p).setBlock c) := by
  rw [step_request h]
  exact performWord_effect w ((s.setPending rest).setPorts p)

theorem step_reset {s : State} {rest : List HostEvent} (h : s.pending = .reset :: rest) :
    step s = .next (s.setPending rest).applyReset :=
  step_event h

/-- An action that is neither a request nor RESET leaves the block. -/
theorem step_block_of_not_request {s t : State} {e : HostEvent} {rest : List HostEvent} (hp : s.pending = e :: rest)
    (hreset : e ≠ .reset) (hrequest : ∀ w p, e ≠ .request w p) (h : step s = .next t) : t.block = s.block := by
  obtain ⟨hnil, -⟩ | ⟨e', rest', hp', ⟨w, p, rfl, -⟩ | ⟨rfl, -⟩ | ⟨-, -, hblock, -⟩⟩ := step_cases h
  · cases hp.symm.trans hnil
  · cases hp.symm.trans hp'
    exact absurd rfl (hrequest w p)
  · cases hp.symm.trans hp'
    exact absurd rfl hreset
  · exact hblock

/-- No step writes the ROM (R41, R192). -/
theorem step_rom {s t : State} (h : step s = .next t) : t.rom = s.rom := by
  obtain ⟨-, rfl⟩ | ⟨e, rest, -, ⟨w, p, -, hw⟩ | ⟨-, rfl⟩ | ⟨-, -, -, hrom, -⟩⟩ := step_cases h
  · rfl
  · obtain ⟨c, -, hnext⟩ := performWord_effect w ((s.setPending rest).setPorts p)
    rw [hnext] at hw
    cases hw
    rfl
  · rfl
  · exact hrom

/-! #### The flags -/

theorem decode_eq_enc_iff (w : Byte) : decode w = .ok .enc ↔ w = 0x00#8 := by
  revert w
  decide +kernel

theorem decode_eq_dec_iff (w : Byte) : decode w = .ok .dec ↔ w = 0x01#8 := by
  revert w
  decide +kernel

/-- R74: the CRC words by mask, LEN = 0 excluded. -/
theorem crc_word_of_decode {w : Byte} {len : BitVec 4} (h : decode w = .ok (.crc len)) :
    w &&& 0x0F#8 = 0x02#8 ∧ w ≠ 0x02#8 := by
  revert w len
  decide +kernel

/-- R75: an illegal word is no word of ENC, DEC or CRC. -/
theorem word_of_decode_error {w : Byte} {c : IllegalWord} (h : decode w = .error c) :
    w ≠ 0x00#8 ∧ w ≠ 0x01#8 ∧ (w &&& 0x0F#8 == 0x02#8 && w != 0x02#8) = false := by
  revert w
  cases c <;> decide +kernel

/-- The checksum gate of DEC as the test R141 writes. -/
theorem replyPasses_eq_decide (T : Byte → Byte) (f : ReplyFrame) :
    replyPasses T f = decide (checksum T f.toList = some f[14]) := by
  rw [Bool.eq_iff_iff, replyPasses_iff, decide_eq_true_iff]

/-- R27 to R30: each flag and RHAS after a request of the word `w`. -/
theorem RequestEffect.flags {T : Byte → Byte} {p : Ports} {w : Byte} {b c : Block} (h : RequestEffect T p w b c) :
    getFlag c.status .txv = (getFlag b.status .txv || w == 0x00#8) ∧
    getFlag c.status .crcv = (getFlag b.status .crcv || (w &&& 0x0F#8 == 0x02#8 && w != 0x02#8)) ∧
    getFlag c.status .illegal = (getFlag b.status .illegal ||
      !(w == 0x00#8 || w == 0x01#8 || (w &&& 0x0F#8 == 0x02#8 && w != 0x02#8))) ∧
    getFlag c.status .rvalid = (if w = 0x01#8 then replyPasses T p.frameIn else getFlag b.status .rvalid) ∧
    getFlag c.status .chkerr = (if w = 0x01#8 then !replyPasses T p.frameIn else getFlag b.status .chkerr) ∧
    c.rhas = (b.rhas || (w == 0x01#8 && replyPasses T p.frameIn)) := by
  cases h with
  | enc hw =>
    obtain rfl := (decode_eq_enc_iff w).1 hw
    simp
  | decPasses hw hp =>
    obtain rfl := (decode_eq_dec_iff w).1 hw
    simp [hp]
  | decFails hw hp =>
    obtain rfl := (decode_eq_dec_iff w).1 hw
    simp [hp]
  | crc hw hv =>
    have hcrc := crc_word_of_decode hw
    have henc := mt (decode_eq_enc_iff w).2 (by simp [hw])
    have hdec := mt (decode_eq_dec_iff w).2 (by simp [hw])
    simp [hcrc, henc, hdec]
  | illegal hw =>
    obtain ⟨henc, hdec, hcrc⟩ := word_of_decode_error hw
    rw [hcrc]
    simp [henc, hdec]

/-- Settles O32: each effect of a request sets the flags it names, RESET clears them all, and no other action reaches the
block. -/
theorem flagLaws : Obligations.FlagLaws := by
  intro s t e rest hp hstep
  have other (hreset : e ≠ .reset) (hrequest : ∀ w p, e ≠ .request w p) :
      (∀ b : StatusBit, getFlag t.block.status b = getFlag s.block.status b) ∧ t.block.rhas = s.block.rhas := by
    rw [step_block_of_not_request hp hreset hrequest hstep]
    exact ⟨fun _ => rfl, rfl⟩
  cases e with
  | request w p =>
    obtain ⟨c, heffect, hnext⟩ := step_request_effect hp
    rw [hnext] at hstep
    cases hstep
    dsimp only
    rw [← replyPasses_eq_decide]
    exact heffect.flags
  | reset =>
    rw [step_reset hp] at hstep
    cases hstep
    exact ⟨getFlag_reset, rfl⟩
  | readReg | readBus | writeReg | transmit | linkError => exact other nofun nofun


/-- Settles O10: the word's effect is the one of an illegal word, and the law of ILLEGAL keeps it set over every action but
RESET. -/
theorem illegalWordSetsStickyIllegal : Obligations.IllegalWordSetsStickyIllegal := by
  refine ⟨fun s w p rest c hp hw => ?_, fun s t e rest hp hreset hstep hset => ?_⟩
  · rw [step_request hp, performWord_of_error hw]
    rfl
  · have laws := flagLaws s t e rest hp hstep
    cases e with
    | request w p =>
      obtain ⟨-, -, hillegal, -⟩ := laws
      rw [hillegal, hset, Bool.true_or]
    | reset => exact absurd rfl hreset
    | readReg | readBus | writeReg | transmit | linkError => exact (laws.1 .illegal).trans hset

/-! #### Old operands -/

/-- A host read does not look at the ports. -/
theorem performRead_setPorts {r : Reg} {s t : State} (h : performRead r s = .next t) (p : Ports) :
    performRead r (s.setPorts p) = .next (t.setPorts p) := by
  unfold performRead at h ⊢
  rw [State.setPorts_block]
  split at h
  · cases h
    rfl
  · cases h

theorem performBusRead_setPorts {a : Nat} {s t : State} (h : performBusRead a s = .next t) (p : Ports) :
    performBusRead a (s.setPorts p) = .next (t.setPorts p) := by
  unfold performBusRead at h ⊢
  split at h
  · exact performRead_setPorts h p
  · cases h

theorem performTransmit_setPorts {s t : State} (h : performTransmit s = .next t) (p : Ports) :
    performTransmit (s.setPorts p) = .next (t.setPorts p) := by
  unfold performTransmit at h ⊢
  rw [State.setPorts_block]
  split at h
  · cases h
    rfl
  · cases h

/-- No action but a request looks at the ports. -/
theorem performEvent_setPorts {e : HostEvent} (he : ∀ w q, e ≠ .request w q) {s t : State}
    (h : performEvent e s = .next t) (p : Ports) : performEvent e (s.setPorts p) = .next (t.setPorts p) := by
  cases e with
  | request w q => exact absurd rfl (he w q)
  | reset | linkError => cases h; rfl
  | readReg r => exact performRead_setPorts h p
  | readBus a => exact performBusRead_setPorts h p
  | writeReg r => cases h
  | transmit => exact performTransmit_setPorts h p

/-- The step with other values on the ports: a request overwrites them, every other action carries them along. -/
theorem step_setPorts {s t : State} (h : step s = .next t) (p : Ports) :
    ∃ q, step (s.setPorts p) = .next (t.setPorts q) := by
  cases hp : s.pending with
  | nil =>
    rw [step_idle hp] at h
    cases h
    exact ⟨p, step_idle hp⟩
  | cons e rest =>
    rw [step_event hp] at h
    rw [step_event (s := s.setPorts p) hp]
    cases e with
    | request w q => exact ⟨t.ports, h⟩
    | reset | readReg | readBus | writeReg | transmit | linkError => exact ⟨p, performEvent_setPorts (by nofun) h p⟩

/-- Settles O29: with other values on the ports the step answers the same state, up to its own ports. -/
theorem oldOperandsLeaveNoTrace : Obligations.OldOperandsLeaveNoTrace := by
  intro s t p hstep
  obtain ⟨q, hq⟩ := step_setPorts hstep p
  exact ⟨t.setPorts q, hq, rfl, rfl, rfl, rfl, rfl⟩

/-! #### Results and old register contents -/

/-- Settles O30: the frame of ENC and the checksum of CRC read the ports and the ROM alone, and a DEC that passes overwrites
every reply register. -/
theorem resultsDoNotDependOnRegisters : Obligations.ResultsDoNotDependOnRegisters := by
  intro i s b hwf
  cases i with
  | enc => exact ⟨_, _, exec_enc s, exec_enc _, rfl, rfl⟩
  | crc len =>
    obtain ⟨rfl, -⟩ | ⟨-, v, hv, -⟩ := crcBlock_cases (romRead s.rom) s.ports.frameIn len s.block
    · cases hwf
    · refine ⟨_, _, exec_crc len s, exec_crc len _, ?_⟩
      simp [crcBlock_of_checksum hv]
  | dec =>
    refine ⟨_, _, exec_dec s, exec_dec _, ?_⟩
    refine ⟨?_, ?_, fun hrvalid r hr => ?_⟩
    · rw [State.setBlock_block, State.setBlock_block, getFlag_decBlock, getFlag_decBlock]
      rfl
    · rw [State.setBlock_block, State.setBlock_block, getFlag_decBlock, getFlag_decBlock]
      rfl
    · have hpasses : replyPasses (romRead s.rom) s.ports.frameIn = true := by
        simpa [getFlag_decBlock] using hrvalid
      have hne := Reg.ne_status_of_isReply hr
      rw [State.setBlock_block, State.setBlock_block, decBlock_of_passes hpasses, decBlock_of_passes hpasses,
        readReg_setStatus_of_ne hne, readReg_setStatus_of_ne hne]
      exact ⟨readReg_writeReply hr _ _ _, holds_writeReply hr _ _⟩

/-- Settles O34: reset fills the ROM from CRC_TABLE, and no step writes it. -/
theorem romNeverChanges : Obligations.RomNeverChanges := by
  refine ⟨fun a => ?_, fun s t hstep a => by rw [step_rom hstep]⟩
  simp [romRead, State.reset]

/-! #### The host's accesses -/

theorem performRead_of_some {r : Reg} {s : State} {v : RegValue} (h : readReg s.block r = some v) :
    performRead r s = .next (s.setReadData r v) := by
  simp [performRead, h]

theorem performRead_of_none {r : Reg} {s : State} (h : readReg s.block r = none) :
    performRead r s = .fault (.noValue r) := by
  simp [performRead, h]

theorem step_readReg {s : State} {r : Reg} {rest : List HostEvent} (h : s.pending = .readReg r :: rest) :
    step s = performRead r (s.setPending rest) :=
  step_event h

/-- A masked register reads 0 in every bit that its mask leaves out (R39). -/
theorem reserved_of_masked_read {o : Option Byte} {m n v : Byte} (hmn : m &&& n = 0)
    (h : o.map (fun x => RegValue.byte (x &&& m)) = some (.byte v)) : v &&& n = 0 := by
  obtain ⟨x, -, hx⟩ := Option.map_eq_some_iff.1 h
  cases hx
  exact and_and_of_disjoint hmn x

/-- Settles O37: a read is `readReg` of the block, which holds a value where the register's own field does, and the masks of
R39 clear the reserved bits; a write is refused. -/
theorem hostRegisterAccess : Obligations.HostRegisterAccess := by
  refine ⟨fun s r rest => ⟨fun hp => ?_, fun hp => step_event hp⟩, fun b => ?_, fun b => ?_, fun b => ?_⟩
  · rw [step_readReg hp]
    split
    next v hv => exact performRead_of_some hv
    next hv => exact performRead_of_none hv
  · exact ⟨rfl, fun _ => congrArg (Option.map _), fun _ => congrArg (Option.map _),
      fun _ _ => congrArg (Option.map _), fun _ => congrArg (Option.map _), fun _ => congrArg (Option.map _),
      fun _ => congrArg (Option.map _), fun _ => congrArg (Option.map _), fun _ => congrArg (Option.map _)⟩
  · refine ⟨?_, ?_, fun i => ?_, ?_, ?_, ?_, ?_, ?_⟩ <;> exact Option.map_eq_none_iff
  · exact ⟨⟨_, rfl, and_and_of_disjoint (by decide) _⟩, fun _ => reserved_of_masked_read (by decide),
      fun _ => reserved_of_masked_read (by decide), fun _ => reserved_of_masked_read (by decide)⟩

/-- Settles O7: the placed word is the waiting action, its operands those already on the ports. -/
theorem placedWordRuns : Obligations.PlacedWordRuns := by
  intro s n w i hdecode
  have hw : decode (BitVec.ofNat 8 w) = .ok i := by
    unfold decodeTableWord at hdecode
    split at hdecode
    next j hj => cases hdecode; exact hj
    next => cases hdecode
  calc step (s.withFetchWord n w)
      = performWord (BitVec.ofNat 8 w) s := step_request (s := s.withFetchWord n w) rfl
    _ = exec i s := performWord_of_decode hw s

/-- Settles O33: RESET puts the block of State.reset in place of the old one, and there no data register holds a value. -/
theorem resetClearsTheBlock : Obligations.ResetClearsTheBlock :=
  ⟨⟨rfl, rfl, fun _ => readReg_reset⟩,
    fun _ _ hp => ⟨Block.reset, step_reset hp, rfl, rfl, fun _ => readReg_reset⟩⟩

theorem Reg.ofNumber_number (r : Reg) : Reg.ofNumber r.number = r := by
  cases r with
  | rCtrl i => fin_cases i <;> rfl
  | _ => rfl

theorem Reg.number_ofNumber (n : Fin 14) : (Reg.ofNumber n).number = n := by
  revert n
  decide

/-- Settles O38: the numbering is a bijection, and a bus read performs the read of the register at its address. -/
theorem busReadIsRegisterRead : Obligations.BusReadIsRegisterRead := by
  refine ⟨Reg.ofNumber_number, Reg.number_ofNumber, ⟨rfl, rfl, rfl, fun _ => rfl, rfl, rfl, rfl, rfl, rfl⟩, ?_⟩
  intro s addr rest hp
  have hbus : step s = performBusRead addr (s.setPending rest) := step_event hp
  unfold performBusRead at hbus
  split <;> next h =>
    rw [h] at hbus
    exact hbus

end Sys2Proof.Machine

/-! ### The memory statements (spec/20_memory.md): repeated requests, what leaves the block alone, and the bytes sent -/

namespace Sys2Proof.Machine

/-! #### A request performed twice -/

@[simp] theorem setFlag_setFlag (st : Byte) (b : StatusBit) (v w : Bool) :
    setFlag (setFlag st b v) b w = setFlag st b w := by
  revert st v w
  cases b <;> decide +kernel

theorem setFlag_comm {b c : StatusBit} (h : b ≠ c) (st : Byte) (v w : Bool) :
    setFlag (setFlag st b v) c w = setFlag (setFlag st c w) b v := by
  revert h st v w
  cases b <;> cases c <;> decide +kernel

@[simp] theorem statusAfterEnc_twice (st : Byte) : statusAfterEnc (statusAfterEnc st) = statusAfterEnc st :=
  setFlag_setFlag st .txv true true

@[simp] theorem statusAfterCrc_twice (st : Byte) : statusAfterCrc (statusAfterCrc st) = statusAfterCrc st :=
  setFlag_setFlag st .crcv true true

@[simp] theorem statusAfterIllegal_twice (st : Byte) :
    statusAfterIllegal (statusAfterIllegal st) = statusAfterIllegal st :=
  setFlag_setFlag st .illegal true true

@[simp] theorem statusAfterDecode_twice (st : Byte) : statusAfterDecode (statusAfterDecode st) = statusAfterDecode st := by
  unfold statusAfterDecode
  rw [setFlag_comm (b := .chkerr) (c := .rvalid) (by decide), setFlag_setFlag, setFlag_setFlag]

@[simp] theorem statusAfterChecksumError_twice (st : Byte) :
    statusAfterChecksumError (statusAfterChecksumError st) = statusAfterChecksumError st := by
  unfold statusAfterChecksumError
  rw [setFlag_comm (b := .chkerr) (c := .rvalid) (by decide), setFlag_setFlag, setFlag_setFlag]

@[simp] theorem Block.setStatus_setStatus (b : Block) (v w : Byte) : (b.setStatus v).setStatus w = b.setStatus w := rfl

@[simp] theorem Block.setCrcOut_setStatus (b : Block) (v w : Byte) :
    (b.setStatus v).setCrcOut w = (b.setCrcOut w).setStatus v := rfl

@[simp] theorem Block.setCrcOut_setCrcOut (b : Block) (v w : Byte) : (b.setCrcOut v).setCrcOut w = b.setCrcOut w := rfl

@[simp] theorem writeReply_setStatus (f : ReplyFrame) (b : Block) (v : Byte) :
    writeReply f (b.setStatus v) = (writeReply f b).setStatus v := rfl

@[simp] theorem writeReply_writeReply (f g : ReplyFrame) (b : Block) :
    writeReply g (writeReply f b) = writeReply g b := rfl

@[simp] theorem State.setBlock_setBlock (s : State) (b c : Block) : (s.setBlock b).setBlock c = s.setBlock c := rfl

/-- The frame of ENC reads CMD_IN and the ROM alone, so a second ENC writes the same one. -/
theorem encBlock_twice (T : Byte → Byte) (cmd : CmdPort) (b : Block) :
    encBlock T cmd (encBlock T cmd b) = encBlock T cmd b := by
  simp [encBlock_eq]

/-- A second DEC of the same frame passes or fails as the first did, and writes the same reply registers or none. -/
theorem decBlock_twice (T : Byte → Byte) (f : ReplyFrame) (b : Block) :
    decBlock T f (decBlock T f b) = decBlock T f b := by
  cases hp : replyPasses T f with
  | true => simp [decBlock_of_passes hp]
  | false => simp [decBlock_of_fails hp]

/-- A second CRC of the same buffer has the same checksum, or is illegal again. -/
theorem crcBlock_twice (T : Byte → Byte) (f : ReplyFrame) (len : BitVec 4) (b : Block) :
    crcBlock T f len (crcBlock T f len b) = crcBlock T f len b := by
  obtain ⟨rfl, -⟩ | ⟨-, v, hv, -⟩ := crcBlock_cases T f len b
  · rw [crcBlock_zero, crcBlock_zero]
    simp
  · simp [crcBlock_of_checksum hv]

/-- Settles O31: a request leaves its operands and the ROM in place, and what it does to the block it does once. -/
theorem requestsAreIdempotent : Obligations.RequestsAreIdempotent := by
  intro i s
  cases i with
  | enc => exact ⟨_, exec_enc s, by simp [exec_enc, encBlock_twice]⟩
  | dec => exact ⟨_, exec_dec s, by simp [exec_dec, decBlock_twice]⟩
  | crc len => exact ⟨_, exec_crc len s, by simp [exec_crc, crcBlock_twice]⟩

/-! #### What leaves the block alone -/

/-- Settles O41: of all that a step can have done, only a request and RESET leave a block that can differ from the old one. -/
theorem onlyRequestsAndResetChangeTheBlock : Obligations.OnlyRequestsAndResetChangeTheBlock := by
  intro s t hstep hchanged
  obtain ⟨-, rfl⟩ | ⟨e, rest, hp, ⟨w, p, rfl, -⟩ | ⟨rfl, -⟩ | ⟨-, -, hblock, -⟩⟩ := step_cases hstep
  · exact absurd rfl hchanged
  · exact ⟨rest, .inr ⟨w, p, hp⟩⟩
  · exact ⟨rest, .inl hp⟩
  · exact absurd hblock hchanged

/-! #### The bytes sent -/

/-- A command frame as the list of its bytes in index order (R52). -/
theorem cmdFrame_toList (f : CmdFrame) : f.toList = [f[0], f[1], f[2], f[3], f[4], f[5], f[6], f[7], f[8]] :=
  congrArg Vector.toList (cmdFrame_eta f)

theorem performTransmit_of_some {s : State} {f : CmdFrame} (h : s.block.txFrame = some f) :
    performTransmit s = .next (s.sendBytes f.toList) := by
  simp [performTransmit, h]

theorem performTransmit_of_none {s : State} (h : s.block.txFrame = none) :
    performTransmit s = .fault (.noValue .txFrame) := by
  simp [performTransmit, h]

/-- Settles O40: the step performs the transmission with the rest of the list waiting, and that sends the frame's list. -/
theorem transmitSendsFrameInOrder : Obligations.TransmitSendsFrameInOrder := by
  intro s rest hp
  have hstep : step s = performTransmit (s.setPending rest) := step_event hp
  refine ⟨fun f hf => ?_, fun hnone => ?_⟩
  · rw [hstep, performTransmit_of_some (s := s.setPending rest) hf, cmdFrame_toList]
    rfl
  · rw [hstep]
    exact performTransmit_of_none (s := s.setPending rest) hnone

end Sys2Proof.Machine

/-! ### The encoding statements (spec/30_encoding.md): the decoder by fields, the ports and frames as values, what each
request reads of its operands, and the assembler -/

namespace Sys2Proof

/-! #### The decoder by the fields of a word -/

/-- LEN, RSV and OP are all of a word (R70). -/
theorem fields_append (w : Byte) : lenField w ++ rsvField w ++ opField w = w := by
  revert w
  decide +kernel

theorem word_eq_of_fields {v w : Byte} (hop : opField v = opField w) (hrsv : rsvField v = rsvField w)
    (hlen : lenField v = lenField w) : v = w := by
  rw [← fields_append v, ← fields_append w, hop, hrsv, hlen]

/-- The fields that R72 to R74 give the word of an instruction, LEN = 0 of CRC not yet excluded. -/
def Instr.FieldsOf (w : Byte) (i : Instr) : Prop :=
  rsvField w = 0b00#2 ∧
    match i with
    | .enc => opField w = 0b00#2 ∧ lenField w = 0#4
    | .dec => opField w = 0b01#2 ∧ lenField w = 0#4
    | .crc len => opField w = 0b10#2 ∧ lenField w = len

/-- The fields that R75 gives the words of an illegal class. -/
def IllegalWord.FieldsOf (w : Byte) : IllegalWord → Prop
  | .opReserved => opField w = 0b11#2
  | .rsvNonzero => opField w ≠ 0b11#2 ∧ rsvField w ≠ 0b00#2
  | .lenNonzero => (opField w = 0b00#2 ∨ opField w = 0b01#2) ∧ rsvField w = 0b00#2 ∧ lenField w ≠ 0#4
  | .crcLenZero => opField w = 0b10#2 ∧ rsvField w = 0b00#2 ∧ lenField w = 0#4

theorem opField_cases (w : Byte) :
    opField w = 0b00#2 ∨ opField w = 0b01#2 ∨ opField w = 0b10#2 ∨ opField w = 0b11#2 := by
  generalize opField w = op
  revert op
  decide

/-- What the fields of a word are, by what the decoder answers: one case per branch of `decode`. -/
theorem decode_fields (w : Byte) :
    match decode w with
    | .ok i => i.wellFormed = true ∧ i.FieldsOf w
    | .error c => c.FieldsOf w := by
  have hop := opField_cases w
  unfold decode
  split_ifs with hreserved hrsv hcrc hzero hlen henc
  · exact hreserved
  · exact ⟨hreserved, hrsv⟩
  · exact ⟨hcrc, not_not.1 hrsv, hzero⟩
  · exact ⟨by simpa [Instr.wellFormed] using hzero, not_not.1 hrsv, hcrc, rfl⟩
  · exact ⟨by tauto, not_not.1 hrsv, hlen⟩
  · exact ⟨rfl, not_not.1 hrsv, henc, not_not.1 hlen⟩
  · exact ⟨rfl, not_not.1 hrsv, by tauto, not_not.1 hlen⟩

theorem decode_eq_ok_iff_fields (w : Byte) (i : Instr) :
    decode w = .ok i ↔ i.wellFormed = true ∧ i.FieldsOf w := by
  refine ⟨fun h => by simpa only [h] using decode_fields w, fun ⟨hwf, hrsv, hfields⟩ => ?_⟩
  cases i with
  | enc | dec => simp [decode, hrsv, hfields]
  | crc len =>
    obtain ⟨hop, rfl⟩ := hfields
    have hlen : lenField w ≠ 0#4 := by simpa [Instr.wellFormed] using hwf
    simp [decode, hrsv, hop, hlen]

theorem decode_eq_error_iff_fields (w : Byte) (c : IllegalWord) : decode w = .error c ↔ c.FieldsOf w := by
  refine ⟨fun h => by simpa only [h] using decode_fields w, fun h => ?_⟩
  cases c with
  | opReserved => exact if_pos h
  | rsvNonzero =>
    obtain ⟨hop, hrsv⟩ := h
    rw [decode, if_neg hop, if_pos hrsv]
  | lenNonzero =>
    obtain ⟨hop | hop, hrsv, hlen⟩ := h <;> simp [decode, hop, hrsv, hlen]
  | crcLenZero =>
    obtain ⟨hop, hrsv, hlen⟩ := h
    simp [decode, hop, hrsv, hlen]

/-- The encoder writes the fields of the instruction. -/
theorem fieldsOf_encode (i : Instr) : i.FieldsOf (encode i) := by
  cases i with
  | enc => exact Laws.EncodedFields.enc
  | dec => exact Laws.EncodedFields.dec
  | crc len => exact Laws.EncodedFields.crc len

/-- No two words have the fields of one instruction, so these are the fields of its encoding alone. -/
theorem fieldsOf_iff_encode_eq (w : Byte) (i : Instr) : i.FieldsOf w ↔ encode i = w := by
  refine ⟨fun hw => ?_, fun h => h ▸ fieldsOf_encode i⟩
  have he := fieldsOf_encode i
  cases i <;> obtain ⟨hrsv, hop, hlen⟩ := hw <;> obtain ⟨hrsv', hop', hlen'⟩ := he <;>
    exact word_eq_of_fields (hop'.trans hop.symm) (hrsv'.trans hrsv.symm) (hlen'.trans hlen.symm)

/-- Settles O1: both sides say that the instruction is well formed and that the word has its fields. -/
theorem decodeEncodeAgree : Obligations.DecodeEncodeAgree := by
  intro w i
  rw [decode_eq_ok_iff_fields, fieldsOf_iff_encode_eq]

/-- A well-formed instruction is read back from its word. -/
theorem decode_encode {i : Instr} (h : i.wellFormed = true) : decode (encode i) = .ok i :=
  (decodeEncodeAgree _ _).2 ⟨h, rfl⟩

/-! #### The legal and the illegal words -/

/-- The word of CRC as R74 writes it. -/
theorem encode_crc (len : BitVec 4) : encode (.crc len) = (len.zeroExtend 8 <<< 4) ||| 0x02#8 := by
  revert len
  decide

/-- Settles O2: each word is the encoding of its instruction, and LEN other than 0 is the well-formedness of CRC. -/
theorem legalRequestWords : Obligations.LegalRequestWords := by
  intro w
  have hmask : w &&& 0xFF#8 = w := BitVec.and_allOnes
  rw [hmask]
  refine ⟨Machine.decode_eq_enc_iff w, Machine.decode_eq_dec_iff w, fun len => ?_⟩
  rw [decodeEncodeAgree, encode_crc, Instr.wellFormed, bne_iff_ne, and_comm, eq_comm]

theorem opField_toNat (w : Byte) : (opField w).toNat = w.toNat % 4 := by
  simp [opField]

theorem rsvField_toNat (w : Byte) : (rsvField w).toNat = w.toNat / 4 % 4 := by
  simp [rsvField, Nat.shiftRight_eq_div_pow]

theorem lenField_toNat (w : Byte) : (lenField w).toNat = w.toNat / 16 := by
  have hw := w.isLt
  simp only [lenField, BitVec.extractLsb'_toNat, Nat.shiftRight_eq_div_pow]
  omega

/-- Settles O3: the classes by their fields, read as numbers; the counts are found by decoding all 256 words. -/
theorem illegalWordClasses : Obligations.IllegalWordClasses := by
  refine ⟨fun w => ?_, by decide +kernel, by decide +kernel, by decide +kernel, by decide +kernel⟩
  have hword : w = 0x02#8 ↔ w.toNat = 2 := BitVec.toNat_inj.symm
  have hw := w.isLt
  refine ⟨?_, ?_, ?_, ?_⟩ <;>
    simp only [decode_eq_error_iff_fields, IllegalWord.FieldsOf, ne_eq, hword, ← BitVec.toNat_inj, opField_toNat,
      rsvField_toNat, lenField_toNat, BitVec.toNat_ofNat] <;>
    omega

/-- Settles O4, by decoding the ten words. -/
theorem sampleWordsDecode : Obligations.SampleWordsDecode := by
  unfold Obligations.SampleWordsDecode
  decide

end Sys2Proof

namespace Sys2Proof.Machine

/-! #### CMD_IN and the CommandState -/

theorem CommandState.ofPort_cars (cmd : CmdPort) (i : Fin 6) : (CommandState.ofPort cmd).cars[i] = carOfPort cmd i := by
  fin_cases i <;> rfl

theorem CommandState.ofPort_leds (cmd : CmdPort) (j : Fin 8) :
    (CommandState.ofPort cmd).leds[j] = cmd.getLsbD (60 + j) := by
  fin_cases j <;> rfl

/-- The ten bits of a car read from CMD_IN are its bits of CMD_IN. -/
theorem carOfPort_bits (cmd : CmdPort) (i : Fin 6) {k : Nat} (hk : k < 10) :
    (carOfPort cmd i).bits.getLsbD k = cmd.getLsbD (10 * i + k) := by
  obtain hpower | rfl | rfl : k < 8 ∨ k = 8 ∨ k = 9 := by omega
  · rw [CarState.bits_power _ hpower]
    simp [carOfPort, carPower, hpower]
  · exact CarState.bits_lane _
  · exact CarState.bits_brake _

theorem CommandState.toPort_ofPort (cmd : CmdPort) : (CommandState.ofPort cmd).toPort = cmd := by
  refine BitVec.eq_of_getLsbD_eq fun n hn => ?_
  by_cases hcar : n < 60
  · have hbit := CommandState.toPort_car (CommandState.ofPort cmd) ⟨n / 10, by omega⟩ (k := n % 10) (by omega)
    rw [CommandState.ofPort_cars, carOfPort_bits _ _ (by omega)] at hbit
    simpa only [Nat.div_add_mod] using hbit
  · have hbit := CommandState.toPort_led (CommandState.ofPort cmd) ⟨n - 60, by omega⟩
    rw [CommandState.ofPort_leds] at hbit
    simpa only [Nat.add_sub_cancel' (not_lt.1 hcar)] using hbit

/-- Car i read from CMD_IN that holds a CommandState is its car i. -/
theorem carOfPort_toPort (c : CommandState) (i : Fin 6) : carOfPort c.toPort i = c.cars[i] := by
  apply CarState.eq_of_fields
  · refine BitVec.eq_of_getLsbD_eq fun k hk => ?_
    rw [← CarState.bits_power c.cars[i] hk, ← CommandState.toPort_car c i (by omega)]
    simp [carOfPort, carPower, hk]
  · exact (CommandState.toPort_car c i (by decide)).trans (CarState.bits_brake _)
  · exact (CommandState.toPort_car c i (by decide)).trans (CarState.bits_lane _)

theorem CommandState.ofPort_toPort (c : CommandState) : CommandState.ofPort c.toPort = c := by
  have hcars : (CommandState.ofPort c.toPort).cars = c.cars := by
    ext1 i hi
    exact (ofPort_cars _ ⟨i, hi⟩).trans (carOfPort_toPort c ⟨i, hi⟩)
  have hleds : (CommandState.ofPort c.toPort).leds = c.leds := by
    ext1 j hj
    exact (ofPort_leds _ ⟨j, hj⟩).trans (toPort_led c ⟨j, hj⟩)
  cases c
  exact congrArg₂ CommandState.mk hcars hleds

/-- Settles O5: the bits of CMD_IN agree car by car and LED by LED, and so do the fields. -/
theorem commandPortRoundTrip : Obligations.CommandPortRoundTrip := by
  refine ⟨CommandState.toPort_ofPort, CommandState.ofPort_toPort, fun cmd i => ?_, CommandState.ofPort_leds⟩
  rw [CommandState.ofPort_cars]
  exact ⟨rfl, rfl, rfl⟩

/-! #### A frame as one value -/

/-- Byte k of a frame is bits 8k+7 to 8k of its value (R78, R81). -/
theorem frameValue_extractLsb' {n : Nat} (f : Vector Byte n) (k : Fin n) :
    (frameValue f).extractLsb' (8 * k) 8 = f[k] := by
  refine BitVec.eq_of_getLsbD_eq fun j hj => ?_
  simp [hj, frameValue_getLsbD f k.isLt hj]

theorem frameValue_frameOfValue {n : Nat} (v : BitVec (8 * n)) : frameValue (frameOfValue v) = v := by
  refine BitVec.eq_of_getLsbD_eq fun b hb => ?_
  have hj : b % 8 < 8 := Nat.mod_lt _ (by decide)
  have hbit := frameValue_getLsbD (frameOfValue v) (k := b / 8) (j := b % 8) (by omega) hj
  simpa [hj, Nat.div_add_mod] using hbit

/-- Settles O44: both are the frame of n bytes, at n = 9 and n = 15. -/
theorem frameIsItsBitValue : Obligations.FrameIsItsBitValue :=
  ⟨frameValue_extractLsb', frameValue_frameOfValue (n := 9), frameValue_extractLsb', frameValue_frameOfValue (n := 15)⟩

/-! #### The buttons -/

/-- A bit of a byte is set iff the mask test of that bit says so. -/
theorem and_twoPow_eq_iff (v : Byte) {k : Nat} (hk : k < 8) :
    v &&& BitVec.twoPow 8 k = BitVec.twoPow 8 k ↔ v.getLsbD k = true := by
  refine ⟨fun h => ?_, fun h => by rw [BitVec.and_twoPow, if_pos h]⟩
  simpa [hk] using congrArg (BitVec.getLsbD · k) h

/-- R149: bit k of R_BTN is the opposite of bit k of reply byte 13. -/
theorem buttons_getLsbD (v : Byte) (k : Fin 6) : (~~~v &&& 0x3F#8).getLsbD k = !v.getLsbD k := by
  have hmask : (0x3F#8).getLsbD k = true := by
    revert k
    decide
  rw [BitVec.getLsbD_and, hmask, Bool.and_true, BitVec.getLsbD_not]
  simp [show k.val < 8 by omega]

/-- R86: the mask test of button k, on the byte before the reserved bits are cleared. -/
theorem button_iff_mask (v : Byte) (k : Fin 6) :
    (~~~v &&& 0x3F#8).getLsbD k = true ↔ ~~~v &&& BitVec.twoPow 8 k = BitVec.twoPow 8 k := by
  have hk : k.val < 8 := by omega
  rw [and_twoPow_eq_iff _ hk, buttons_getLsbD, BitVec.getLsbD_not]
  simp [hk]

/-- Settles O22: R_BTN is the masked complement, and each button is one bit of it. -/
theorem buttonsAreActiveLow : Obligations.ButtonsAreActiveLow := by
  intro s h
  exact ⟨_, _, _, exec_dec_of_checksum h, rfl, rfl, rfl, buttons_getLsbD _, button_iff_mask _ 0, button_iff_mask _ 1,
    button_iff_mask _ 2, button_iff_mask _ 3, button_iff_mask _ 4, button_iff_mask _ 5⟩

/-! #### What each request reads of its operands -/

/-- The checksum reads the first byte of a buffer and every byte before the last (R100, R101). -/
theorem checksum_congr (T : Byte → Byte) {l m : List Byte} (hhead : l.head? = m.head?)
    (hcovered : l.dropLast = m.dropLast) : checksum T l = checksum T m := by
  cases l with
  | nil => rw [List.head?_eq_none_iff.1 hhead.symm]
  | cons b l =>
    obtain ⟨m, rfl⟩ := List.head?_eq_some_iff.1 hhead.symm
    have htail : l.dropLast = m.dropLast := by
      simpa only [List.tail_dropLast, List.tail_cons] using congrArg List.tail hcovered
    rw [checksum_cons, checksum_cons, checksumLoop_eq_foldl, checksumLoop_eq_foldl, htail]

/-- The bytes of CRC's buffer that the checksum covers are FRAME_IN[0..LEN-2] (R107). -/
theorem crcBuffer_dropLast (f : ReplyFrame) (len : BitVec 4) :
    (crcBuffer f len).dropLast = f.toList.take (len.toNat - 1) := by
  have hlen := len.isLt
  rw [crcBuffer, List.dropLast_eq_take, List.take_take, List.length_take, Vector.length_toList]
  congr 1
  omega

theorem crcBuffer_head? (f : ReplyFrame) (len : BitVec 4) :
    (crcBuffer f len).head? = if len.toNat = 0 then none else some f[0] := by
  rw [crcBuffer, List.head?_take, List.head?_eq_getElem?]
  simp

theorem crcBlock_congr {T : Byte → Byte} {f g : ReplyFrame} {len : BitVec 4}
    (h : checksum T (crcBuffer f len) = checksum T (crcBuffer g len)) (b : Block) :
    crcBlock T f len b = crcBlock T g len b := by
  rw [crcBlock, crcBlock, h]

/-- Two ports that agree on what the instruction reads of them (R76). -/
def OperandsAgree (p q : Ports) : Instr → Prop
  | .enc => p.cmdIn = q.cmdIn
  | .dec => p.frameIn = q.frameIn
  | .crc len =>
    p.frameIn[0] = q.frameIn[0] ∧
      p.frameIn.toList.take (len.toNat - 1) = q.frameIn.toList.take (len.toNat - 1)

/-- R76: with operands that agree, an instruction leaves the same block. -/
theorem exec_of_operandsAgree {p q : Ports} {i : Instr} (h : OperandsAgree p q i) (s : State) :
    ∃ b, exec i (s.setPorts p) = .next ((s.setPorts p).setBlock b) ∧
      exec i (s.setPorts q) = .next ((s.setPorts q).setBlock b) := by
  cases i with
  | enc =>
    have hcmd : p.cmdIn = q.cmdIn := h
    exact ⟨_, exec_enc _, by rw [exec_enc, State.setPorts_ports, State.setPorts_ports, hcmd]; rfl⟩
  | dec =>
    have hframe : p.frameIn = q.frameIn := h
    exact ⟨_, exec_dec _, by rw [exec_dec, State.setPorts_ports, State.setPorts_ports, hframe]; rfl⟩
  | crc len =>
    obtain ⟨hfirst, hcovered⟩ := h
    have hsum : checksum (romRead s.rom) (crcBuffer p.frameIn len) =
        checksum (romRead s.rom) (crcBuffer q.frameIn len) := by
      refine checksum_congr _ ?_ ?_
      · rw [crcBuffer_head?, crcBuffer_head?, hfirst]
      · rw [crcBuffer_dropLast, crcBuffer_dropLast, hcovered]
    have hblock := crcBlock_congr hsum s.block
    exact ⟨_, exec_crc len _, by rw [exec_crc, State.setPorts_ports, State.setPorts_ports]; simp [hblock]⟩

/-- Settles O28: ports that agree on what a request reads leave the same block, and an illegal word sets ILLEGAL alone. -/
theorem requestReadsOnlyItsOperands : Obligations.RequestReadsOnlyItsOperands := by
  intro s p q
  refine ⟨fun hcmd => exec_of_operandsAgree (i := .enc) hcmd s, fun hframe => exec_of_operandsAgree (i := .dec) hframe s,
    fun len _ hfirst hcovered => exec_of_operandsAgree (i := .crc len) ⟨hfirst, hcovered⟩ s, fun w rest c hw => ?_⟩
  exact ⟨_, (step_request rfl).trans (performWord_of_error hw _), (step_request rfl).trans (performWord_of_error hw _)⟩

/-- Settles O15: the empty buffer has no checksum, so the term has the outcome of its illegal word. -/
theorem crcOfLengthZeroIsIllegal : Obligations.CrcOfLengthZeroIsIllegal := by
  refine ⟨by decide, fun s => ?_⟩
  rw [exec_crc, crcBlock_zero]
  rfl

/-! #### The assembler (R91) -/

/-- The bytes that a line gives come first on FRAME_IN. -/
theorem overlay_getElem {bytes : List Byte} {k : Nat} (hk : k < bytes.length) (h15 : k < 15) (dontCare : ReplyFrame) :
    (overlay bytes dontCare)[k] = bytes[k] := by
  simp [overlay, hk]

theorem overlay_take {bytes : List Byte} {k : Nat} (hk : k ≤ bytes.length) (h15 : k ≤ 15) (dontCare : ReplyFrame) :
    (overlay bytes dontCare).toList.take k = bytes.take k := by
  refine List.ext_getElem (by simp [hk, h15]) fun j hj _ => ?_
  have hjk : j < k := by
    rw [List.length_take] at hj
    omega
  rw [List.getElem_take, List.getElem_take, Vector.getElem_toList]
  exact overlay_getElem (by omega) (by omega) dontCare

/-- Fifteen bytes leave nothing of the don't-care bytes. -/
theorem overlay_toList {bytes : List Byte} (h : bytes.length = 15) (dontCare : ReplyFrame) :
    (overlay bytes dontCare).toList = bytes := by
  have htake := overlay_take h.ge le_rfl dontCare
  rwa [List.take_of_length_le (by simp), List.take_of_length_le h.le] at htake

theorem assemble_dec_eq_some_iff (x : Ports) (bytes : List Byte) (e : HostEvent) :
    assemble x (.dec bytes) = some e ↔
      bytes.length = 15 ∧ e = .request (encode .dec) { x with frameIn := overlay bytes x.frameIn } := by
  rw [assemble, Option.ite_none_right_eq_some, Option.some_inj, eq_comm (a := e)]

theorem assemble_crc_eq_some_iff (x : Ports) (n : Nat) (bytes : List Byte) (e : HostEvent) :
    assemble x (.crc n bytes) = some e ↔
      (1 ≤ n ∧ n ≤ 15 ∧ bytes.length = n) ∧
        e = .request (encode (.crc (BitVec.ofNat 4 n))) { x with frameIn := overlay bytes x.frameIn } := by
  rw [assemble, Option.ite_none_right_eq_some, Option.some_inj, eq_comm (a := e)]

/-- The word of CRC as a number. -/
theorem encode_crc_ofNat {n : Nat} (h : n ≤ 15) :
    encode (.crc (BitVec.ofNat 4 n)) = BitVec.ofNat 8 (16 * n + 2) := by
  revert n
  decide

/-- Settles O42: the counts decide between a request and a rejection, and the bytes given stand first on FRAME_IN. -/
theorem assemblerLines : Obligations.AssemblerLines := by
  intro x bytes
  refine ⟨fun cmd => ⟨_, rfl, CommandState.ofPort_toPort cmd⟩, fun hlen => ?_, fun hlen => if_neg hlen,
    fun n hpos hle hlen => ?_, fun n hn => if_neg (by omega), fun w => rfl⟩
  · exact ⟨_, (assemble_dec_eq_some_iff _ _ _).2 ⟨hlen, rfl⟩, overlay_toList hlen _⟩
  · refine ⟨_, (assemble_crc_eq_some_iff _ _ _ _).2 ⟨⟨hpos, hle, hlen⟩, by rw [encode_crc_ofNat hle]⟩, ?_⟩
    subst hlen
    rw [overlay_take le_rfl hle, List.take_length]

/-- What two assemblies of one ENC, DEC or CRC line have in common: the instruction and the operands that it reads. -/
theorem assemble_operandsAgree {x y : Ports} {line : AsmLine} {e f : HostEvent} (hreq : ∀ w, line ≠ .req w)
    (he : assemble x line = some e) (hf : assemble y line = some f) :
    ∃ (i : Instr) (p q : Ports), i.wellFormed = true ∧ OperandsAgree p q i ∧
      e = .request (encode i) p ∧ f = .request (encode i) q := by
  cases line with
  | enc cmd =>
    cases he
    cases hf
    exact ⟨.enc, { x with cmdIn := cmd.toPort }, { y with cmdIn := cmd.toPort }, rfl, rfl, rfl, rfl⟩
  | dec bytes =>
    obtain ⟨hlen, rfl⟩ := (assemble_dec_eq_some_iff _ _ _).1 he
    obtain ⟨-, rfl⟩ := (assemble_dec_eq_some_iff _ _ _).1 hf
    refine ⟨.dec, _, _, rfl, ?_, rfl, rfl⟩
    exact Vector.toList_inj.1 ((overlay_toList hlen _).trans (overlay_toList hlen _).symm)
  | crc n bytes =>
    obtain ⟨⟨hpos, hle, hlen⟩, rfl⟩ := (assemble_crc_eq_some_iff _ _ _ _).1 he
    obtain ⟨-, rfl⟩ := (assemble_crc_eq_some_iff _ _ _ _).1 hf
    have hn : (BitVec.ofNat 4 n).toNat = n := Nat.mod_eq_of_lt (by omega)
    have hne : BitVec.ofNat 4 n ≠ 0 := fun h => by
      rw [h] at hn
      exact absurd hn.symm (Nat.one_le_iff_ne_zero.1 hpos)
    refine ⟨.crc (BitVec.ofNat 4 n), _, _, bne_iff_ne.2 hne, ⟨?_, ?_⟩, rfl, rfl⟩
    · rw [overlay_getElem (by omega) (by omega), overlay_getElem (by omega) (by omega)]
    · rw [hn, overlay_take (by omega) (by omega), overlay_take (by omega) (by omega)]
  | req w => exact absurd rfl (hreq w)

/-- Settles O43: both assemblies run one instruction, with operands that agree on what it reads. -/
theorem assembledLineIgnoresDontCare : Obligations.AssembledLineIgnoresDontCare := by
  intro s x y line e f hreq he hf
  obtain ⟨i, p, q, hwf, hagree, rfl, rfl⟩ := assemble_operandsAgree hreq he hf
  obtain ⟨b, hp, hq⟩ := exec_of_operandsAgree hagree (s.setPending [])
  have hdecode := performWord_of_decode (decode_encode hwf)
  exact ⟨_, _, (step_request rfl).trans ((hdecode _).trans hp), (step_request rfl).trans ((hdecode _).trans hq),
    rfl, rfl⟩

end Sys2Proof.Machine

/-! ### The checksum statements (spec/40_checksum.md): the fold over the covered bytes, what an injective table catches, CRC,
and what each request leaves alone -/

namespace Sys2Proof.Machine

/-! #### The checksum as a fold -/

/-- The running value `crc` after the bytes `l` have gone through the table (R102). -/
def crcFold (T : Byte → Byte) (crc : Byte) (l : List Byte) : Byte := l.foldl (fun crc b => T (crc ^^^ b)) crc

theorem crcFold_cons (T : Byte → Byte) (crc b : Byte) (l : List Byte) :
    crcFold T crc (b :: l) = crcFold T (T (crc ^^^ b)) l := rfl

theorem crcFold_append (T : Byte → Byte) (crc : Byte) (l m : List Byte) :
    crcFold T crc (l ++ m) = crcFold T (crcFold T crc l) m :=
  List.foldl_append

/-- R102: the first byte goes through the table as every other does, because it is combined with zero. -/
theorem checksum_eq_crcFold (T : Byte → Byte) {l : List Byte} (h : 2 ≤ l.length) :
    checksum T l = some (crcFold T 0 l.dropLast) := by
  match l, h with
  | b :: c :: l, _ =>
    have hfirst : T (0 ^^^ b) = T b := congrArg T BitVec.zero_xor
    rw [checksum_cons, checksumLoop_eq_foldl, List.dropLast_cons_cons, crcFold_cons, hfirst, crcFold]

theorem two_le_length_concat {l : List Byte} (h : l ≠ []) (x : Byte) : 2 ≤ (l ++ [x]).length := by
  have hlen := List.length_pos_iff.2 h
  rw [List.length_append, List.length_singleton]
  omega

/-- R101: a last byte after at least one other is not covered. -/
theorem checksum_concat (T : Byte → Byte) {covered : List Byte} (h : covered ≠ []) (x : Byte) :
    checksum T (covered ++ [x]) = some (crcFold T 0 covered) := by
  rw [checksum_eq_crcFold T (two_le_length_concat h x), List.dropLast_concat]

/-- R104: a frame is valid iff the fold over its covered bytes is its last byte. -/
theorem frameValid_concat_iff (T : Byte → Byte) {covered : List Byte} (h : covered ≠ []) (x : Byte) :
    frameValid T (covered ++ [x]) = true ↔ crcFold T 0 covered = x := by
  rw [frameValid, decide_eq_true (two_le_length_concat h x), Bool.true_and, beq_iff_eq, checksum_concat T h,
    List.getLast?_concat, Option.some_inj]

/-- Settles O11: two bytes or more are the fold, and the two short buffers are the definition's own cases. -/
theorem checksumFoldsCoveredBytes : Obligations.ChecksumFoldsCoveredBytes :=
  fun T => ⟨fun _ => checksum_eq_crcFold T, fun _ => rfl, rfl⟩

/-- Settles O12: both checksums are the fold over the covered bytes. -/
theorem checksumSkipsLastByte : Obligations.ChecksumSkipsLastByte := by
  intro T covered x y hne
  rw [checksum_concat T hne, checksum_concat T hne]

/-! #### Injective tables -/

/-- R106: an injective table is a permutation, the bytes being finitely many. -/
theorem crcTableInjective_iff_bijective (T : Byte → Byte) : CrcTableInjective T ↔ Function.Bijective T :=
  Finite.injective_iff_bijective

/-- Under an injective table, running values that differ stay different. -/
theorem crcFold_injective {T : Byte → Byte} (hT : CrcTableInjective T) (l : List Byte) {c d : Byte}
    (h : crcFold T c l = crcFold T d l) : c = d := by
  induction l generalizing c d with
  | nil => exact h
  | cons b l ih => exact (BitVec.xor_left_inj b).1 (hT _ _ (ih h))

/-- R106 on the covered bytes: the running values differ after the changed byte, and so they do at the end. -/
theorem crcFold_ne_of_byte_ne {T : Byte → Byte} (hT : CrcTableInjective T) (crc : Byte) (before after : List Byte)
    {x y : Byte} (hxy : x ≠ y) : crcFold T crc (before ++ x :: after) ≠ crcFold T crc (before ++ y :: after) := by
  rw [crcFold_append, crcFold_append, crcFold_cons, crcFold_cons]
  exact fun h => hxy ((BitVec.xor_right_inj _).1 (hT _ _ (crcFold_injective hT after h)))

/-- R106: under an injective table a change of exactly one covered byte changes the checksum. -/
theorem checksum_ne_of_byte_ne {T : Byte → Byte} (hT : CrcTableInjective T) {before after : List Byte} {x y : Byte}
    (hcovered : after ≠ [] ∨ before = []) (hxy : x ≠ y) :
    checksum T (before ++ x :: after) ≠ checksum T (before ++ y :: after) := by
  rcases List.eq_nil_or_concat' after with rfl | ⟨covered, z, rfl⟩
  · obtain rfl : before = [] := by simpa using hcovered
    exact fun h => hxy (hT _ _ (Option.some_inj.1 h))
  · have hsplit (b : Byte) : before ++ b :: (covered ++ [z]) = (before ++ b :: covered) ++ [z] := by simp
    rw [hsplit, hsplit, checksum_concat T (by simp), checksum_concat T (by simp)]
    exact fun h => crcFold_ne_of_byte_ne hT 0 before covered hxy (Option.some_inj.1 h)

/-- Settles O13: the three clauses are the permutation, the covered byte, and the last byte, which the checksum skips. -/
theorem injectiveTableCatchesByteChange : Obligations.InjectiveTableCatchesByteChange := by
  refine ⟨crcTableInjective_iff_bijective, fun T before after x y hT => checksum_ne_of_byte_ne hT,
    fun T covered x y hne hxy => ⟨checksumSkipsLastByte T covered x y hne, fun hvalid => ?_⟩⟩
  rw [frameValid_concat_iff T hne] at hvalid
  rwa [← Bool.not_eq_true, frameValid_concat_iff T hne, hvalid]

/-! #### CRC -/

/-- CRC of a buffer that has a checksum. -/
theorem exec_crc_of_checksum {s : State} {len : BitVec 4} {crc : Byte}
    (h : checksum (romRead s.rom) (crcBuffer s.ports.frameIn len) = some crc) :
    exec (.crc len) s = .next (s.setBlock ((s.block.setCrcOut crc).setStatus (statusAfterCrc s.block.status))) := by
  rw [exec_crc, crcBlock_of_checksum h]

theorem crcBuffer_length (f : ReplyFrame) (len : BitVec 4) : (crcBuffer f len).length = len.toNat := by
  have hlen := len.isLt
  rw [crcBuffer, List.length_take, Vector.length_toList]
  omega

theorem crcBuffer_one (f : ReplyFrame) : crcBuffer f 1 = [f[0]] := by
  rw [replyFrame_eta f]
  rfl

/-- LEN = 15 takes the whole of FRAME_IN. -/
theorem crcBuffer_fifteen (f : ReplyFrame) : crcBuffer f 15 = f.toList :=
  List.take_of_length_le (by simp)

/-- Settles O14: the buffer of LEN bytes covers the first LEN - 1 of them, and of one byte it covers that one. -/
theorem crcWritesChecksum : Obligations.CrcWritesChecksum := by
  refine fun s len => ⟨fun hlen => ?_, fun hlen => ?_⟩
  · have hsum := checksum_eq_crcFold (romRead s.rom) (l := crcBuffer s.ports.frameIn len) (by rwa [crcBuffer_length])
    rw [crcBuffer_dropLast] at hsum
    exact exec_crc_of_checksum hsum
  · subst hlen
    have hsum : checksum (romRead s.rom) (crcBuffer s.ports.frameIn 1) = some (romRead s.rom s.ports.frameIn[0]) := by
      rw [crcBuffer_one]
      rfl
    exact exec_crc_of_checksum hsum

/-- R104 for a command frame: its checksum is byte 8. -/
theorem checksum_commandFrame (T : Byte → Byte) (cmd : CmdPort) :
    checksum T (commandFrame T cmd).toList = some (commandFrame T cmd)[8] := by
  rw [commandFrame_toList]
  rfl

/-- Settles O18: the nine bytes on FRAME_IN are the frame of ENC, whose checksum is its last byte. -/
theorem crcOfEncodedFrameIsItsLastByte : Obligations.CrcOfEncodedFrameIsItsLastByte := by
  intro s p
  obtain ⟨t, henc, htx, hrom⟩ : ∃ t : State, exec .enc s = .next t ∧
      t.block.txFrame = some (commandFrame (romRead s.rom) s.ports.cmdIn) ∧ t.rom = s.rom := ⟨_, exec_enc s, rfl, rfl⟩
  refine ⟨t, (t.setPorts p).setBlock ((t.block.setCrcOut _).setStatus (statusAfterCrc t.block.status)), _, henc, htx,
    frameValid_commandFrame _ _, fun hframe => ⟨exec_crc_of_checksum (s := t.setPorts p) ?_, rfl, htx⟩⟩
  calc checksum (romRead t.rom) (crcBuffer p.frameIn 9)
      = checksum (romRead s.rom) (p.frameIn.toList.take 9) := by rw [hrom]; rfl
    _ = checksum (romRead s.rom) (commandFrame (romRead s.rom) s.ports.cmdIn).toList := by rw [hframe]
    _ = some (commandFrame (romRead s.rom) s.ports.cmdIn)[8] := checksum_commandFrame _ _

/-! #### DEC of a frame with a byte changed -/

/-- DEC of a frame that fails the gate, with the gate as R141 writes it. -/
theorem exec_dec_of_checksum_ne {s : State}
    (h : checksum (romRead s.rom) s.ports.frameIn.toList ≠ some s.ports.frameIn[14]) :
    exec .dec s = .next (s.setBlock (s.block.setStatus (statusAfterChecksumError s.block.status))) := by
  rw [exec_dec, decBlock_of_fails ((replyPasses_eq_false_iff _ _).2 h)]

/-- R106: writing another value at a byte before the last changes the checksum, under an injective table. -/
theorem checksum_set_ne {T : Byte → Byte} (hT : CrcTableInjective T) {l : List Byte} {k : Nat} {x : Byte}
    (hk : k + 1 < l.length) (hx : l[k]? ≠ some x) : checksum T (l.set k x) ≠ checksum T l := by
  have hlt : k < l.length := by omega
  have hne : x ≠ l[k] := fun h => hx (by rw [List.getElem?_eq_getElem hlt, h])
  have hafter : l.drop (k + 1) ≠ [] := by simpa using hk
  have hsplit : l = l.take k ++ l[k] :: l.drop (k + 1) := by simp
  rw [List.set_eq_take_append_cons_drop, if_pos hlt]
  conv_rhs => rw [hsplit]
  exact checksum_ne_of_byte_ne hT (.inl hafter) hne

/-- Settles O25: the change leaves byte 14 and changes the checksum that byte 14 was. -/
theorem changedCoveredByteIsCaught : Obligations.ChangedCoveredByteIsCaught := by
  intro s p k x hT hvalid hx
  have hlast : (p.frameIn.setIfInBounds k.val x)[14] = p.frameIn[14] :=
    Vector.getElem_setIfInBounds_ne _ (by omega)
  have hsum := checksum_set_ne hT (k := k.val) (by rw [Vector.length_toList]; omega) hx
  rw [hvalid, ← hlast, ← Vector.toList_setIfInBounds] at hsum
  exact exec_dec_of_checksum_ne (s := s.setPorts { p with frameIn := p.frameIn.setIfInBounds k.val x }) hsum

/-- R101, R104: whatever byte 14 is replaced by, the checksum is that of the frame as it was. -/
theorem checksum_replyFrame_set_last (T : Byte → Byte) (f : ReplyFrame) (x : Byte) :
    checksum T (f.set 14 x).toList = checksum T f.toList := by
  calc checksum T (f.set 14 x).toList
      = checksum T (f.toList.take 14 ++ [x]) := by rw [replyFrame_set_last]
    _ = checksum T (f.toList.take 14 ++ [f[14]]) := checksumSkipsLastByte T _ _ _ (replyFrame_covered_ne_nil f)
    _ = checksum T f.toList := by rw [← replyFrame_toList_split]

/-- Settles O26: the checksum does not read byte 14, so with the checksum there the frame passes the gate. -/
theorem crcBuildsFrameThatDecodes : Obligations.CrcBuildsFrameThatDecodes := by
  intro s
  obtain ⟨crc, hcrc⟩ : ∃ crc, checksum (romRead s.rom) s.ports.frameIn.toList = some crc :=
    ⟨_, checksum_eq_crcFold _ (by simp)⟩
  have hbuffer : checksum (romRead s.rom) (crcBuffer s.ports.frameIn 15) = some crc := by
    rw [crcBuffer_fifteen, hcrc]
  have hpasses : checksum (romRead s.rom) (s.ports.frameIn.set 14 crc).toList =
      some (s.ports.frameIn.set 14 crc)[14] := by
    rw [checksum_replyFrame_set_last, hcrc, Vector.getElem_set_self]
  have hfirst : (s.ports.frameIn.set 14 crc)[0] = s.ports.frameIn[0] := Vector.getElem_set_ne _ _ (by decide)
  refine ⟨_, _, crc, exec_crc_of_checksum hbuffer, rfl,
    exec_dec_of_checksum (s := State.setPorts _ { s.ports with frameIn := s.ports.frameIn.set 14 crc }) hpasses,
    getFlag_statusAfterDecode _ _, getFlag_statusAfterDecode _ _, rfl, rfl, ?_⟩
  exact congrArg (fun b : Byte => some (b &&& 0x7F#8)) hfirst

/-! #### What each request leaves alone -/

/-- A register that no reply writes reads as before. -/
theorem readReg_writeReply_of_not_isReply {r : Reg} (h : r.isReply = false) (f : ReplyFrame) (b : Block) :
    readReg (writeReply f b) r = readReg b r := by
  cases r with
  | status | txFrame | crcOut => rfl
  | rStat | rCtrl | rAux | rLapCar | rLapMs | rBtn => cases h

/-- DEC leaves STATUS bits 7:5 as they were. -/
theorem decBlock_reserved (T : Byte → Byte) (f : ReplyFrame) (b : Block) :
    (decBlock T f b).status &&& 0xE0#8 = b.status &&& 0xE0#8 := by
  cases hp : replyPasses T f with
  | true => simp [decBlock_of_passes hp]
  | false => simp [decBlock_of_fails hp]

/-- DEC leaves TX_FRAME and CRC_OUT, whether the frame passes or not (R108). -/
theorem readReg_decBlock_of_not_isReply {r : Reg} (hr : r.isReply = false) (hst : r ≠ .status) (T : Byte → Byte)
    (f : ReplyFrame) (b : Block) : readReg (decBlock T f b) r = readReg b r := by
  cases hp : replyPasses T f with
  | true => rw [decBlock_of_passes hp, readReg_setStatus_of_ne hst, readReg_writeReply_of_not_isReply hr]
  | false => rw [decBlock_of_fails hp, readReg_setStatus_of_ne hst]

/-- Settles O27: the request changes the block alone, and there what its named updates name. -/
theorem requestLeavesTheRestAlone : Obligations.RequestLeavesTheRestAlone := by
  intro i s t hwf hexec
  cases i with
  | enc =>
    rw [exec_enc] at hexec
    cases hexec
    refine ⟨fun _ => rfl, rfl, rfl, rfl, rfl, statusAfterEnc_reserved _, fun r htx hst => ?_, rfl, fun b hb => ?_⟩
    · exact (readReg_setStatus_of_ne hst _ _).trans (readReg_setTxFrame_of_ne htx _ _)
    · exact getFlag_setFlag_of_ne hb _ _
  | dec =>
    rw [exec_dec] at hexec
    cases hexec
    refine ⟨fun _ => rfl, rfl, rfl, rfl, rfl, decBlock_reserved _ _ _,
      fun r hr hst => readReg_decBlock_of_not_isReply hr hst _ _ _, fun b hrvalid hchkerr => ?_, fun hfails => ?_⟩
    · simp [getFlag_decBlock, hrvalid, hchkerr]
    · rw [State.setBlock_block, decBlock_of_fails ((replyPasses_eq_false_iff _ _).2 hfails)]
      exact ⟨rfl, fun r hr => readReg_setStatus_of_ne (Reg.ne_status_of_isReply hr) _ _⟩
  | crc len =>
    obtain ⟨rfl, -⟩ | ⟨-, v, hv, -⟩ := crcBlock_cases (romRead s.rom) s.ports.frameIn len s.block
    · cases hwf
    · rw [exec_crc_of_checksum hv] at hexec
      cases hexec
      refine ⟨fun _ => rfl, rfl, rfl, rfl, rfl, statusAfterCrc_reserved _, fun r hcrc hst => ?_, rfl, fun b hb => ?_⟩
      · exact (readReg_setStatus_of_ne hst _ _).trans (readReg_setCrcOut_of_ne hcrc _ _)
      · exact getFlag_setFlag_of_ne hb _ _

end Sys2Proof.Machine

/-! ### The encode statements (spec/41_encode.md): the car status byte field by field, and the frame of ENC byte by
byte -/

namespace Sys2Proof.Machine

/-! #### The car status byte -/

/-- R123: the clamp is the minimum, as a number. -/
theorem clampPower_toNat (power : Byte) : (clampPower power).toNat = min power.toNat 63 := by
  unfold clampPower
  split
  case isTrue h => exact (min_eq_left h).symm
  case isFalse h => exact (min_eq_right (not_le.1 h).le).symm

theorem clampPower_eq_ofNat_min (power : Byte) : clampPower power = BitVec.ofNat 8 (min power.toNat 63) := by
  rw [← clampPower_toNat, BitVec.ofNat_toNat, BitVec.setWidth_eq]

theorem clampPower_toNat_lt (power : Byte) : (clampPower power).toNat < 2 ^ 6 := by
  rw [clampPower_toNat]
  omega

/-- A clamped power has no bit at the places of the lane change and the brake. -/
theorem clampPower_getLsbD_of_le (power : Byte) {k : Nat} (hk : 6 ≤ k) : (clampPower power).getLsbD k = false :=
  Nat.testBit_lt_two_pow ((clampPower_toNat_lt power).trans_le (Nat.pow_le_pow_right (by decide) hk))

/-- R123: the clamped power fits in the six bits that R79 gives it. -/
theorem clampPower_and_powerMask (power : Byte) : clampPower power &&& 0x3F#8 = clampPower power := by
  refine BitVec.eq_of_toNat_eq ?_
  exact (Nat.and_two_pow_sub_one_eq_mod _ 6).trans (Nat.mod_eq_of_lt (clampPower_toNat_lt power))

/-- R79: the low six bits of `s_i` are the clamped power, the lane change and the brake being above them. -/
theorem carStatus_and_powerMask (power : Byte) (brake lane : Bool) :
    carStatus power brake lane &&& 0x3F#8 = clampPower power := by
  have hflags :
      ((BitVec.ofBool brake).zeroExtend 8 <<< 7 ||| (BitVec.ofBool lane).zeroExtend 8 <<< 6) &&& 0x3F#8 = 0#8 := by
    revert brake lane
    decide
  rw [carStatus, BitVec.and_or_distrib_right, hflags, clampPower_and_powerMask, BitVec.zero_or]

/-- R79: the lane change is bit 6 of `s_i`. -/
theorem carStatus_lane (power : Byte) (brake lane : Bool) : (carStatus power brake lane).getLsbD 6 = lane := by
  rw [carStatus, BitVec.getLsbD_or, clampPower_getLsbD_of_le power (by decide)]
  simp

/-- R79: the brake is bit 7 of `s_i`. -/
theorem carStatus_brake (power : Byte) (brake lane : Bool) : (carStatus power brake lane).getLsbD 7 = brake := by
  rw [carStatus, BitVec.getLsbD_or, clampPower_getLsbD_of_le power (by decide)]
  simp

/-! #### The frame of ENC -/

/-- R122: byte 1+i of the frame is the wire byte of car i. -/
theorem commandFrame_car (T : Byte → Byte) (cmd : CmdPort) (i : Fin 6) :
    (commandFrame T cmd).toList[1 + i.val]? = some (carWire cmd i) := by
  rw [commandFrame_toList]
  fin_cases i <;> rfl

/-- The wire byte of car i with its fields as R77 places them on CMD_IN and R79 in the byte. -/
theorem carWire_eq (cmd : CmdPort) (i : Fin 6) :
    carWire cmd i = ~~~(((BitVec.ofBool (cmd.getLsbD (10 * i + 9))).zeroExtend 8 <<< 7) |||
      ((BitVec.ofBool (cmd.getLsbD (10 * i + 8))).zeroExtend 8 <<< 6) |||
      BitVec.ofNat 8 (min (cmd.extractLsb' (10 * i) 8).toNat 63)) := by
  rw [carWire, carStatus, clampPower_eq_ofNat_min]
  rfl

/-- Complementing the wire byte again gives `s_i` back. -/
theorem not_carWire (cmd : CmdPort) (i : Fin 6) :
    ~~~carWire cmd i = carStatus (carPower cmd i) (carBrake cmd i) (carLane cmd i) :=
  BitVec.not_not

/-- R124: bit j of the LED byte is LED_j. -/
theorem ledMask_getLsbD (cmd : CmdPort) (j : Fin 8) : (ledMask cmd).getLsbD j = cmd.getLsbD (60 + j) := by
  simp [ledMask]

/-- Settles O16: ENC writes the model's command frame, and each of its bytes is what its rule says. -/
theorem encWritesCommandFrame : Obligations.EncWritesCommandFrame := by
  refine ⟨(decode_eq_enc_iff _).2 rfl, fun s => ⟨commandFrame (romRead s.rom) s.ports.cmdIn, ?_, rfl, fun i => ?_,
    ledMask_getLsbD _, checksum_commandFrame _ _⟩⟩
  · rw [exec_enc, encBlock_eq, statusAfterEnc_eq]
    rfl
  · rw [commandFrame_car, carWire_eq]

/-- Settles O17: the complement of car i's byte is `s_i`, and its three fields are read off it. -/
theorem clampLaw : Obligations.ClampLaw := by
  intro s i
  refine ⟨_, _, carWire s.ports.cmdIn i, exec_enc s, rfl, commandFrame_car _ _ i, ?_, ?_, ?_⟩ <;> rw [not_carWire]
  · rw [carStatus_and_powerMask, clampPower_toNat]
    rfl
  · exact carStatus_lane _ _ _
  · exact carStatus_brake _ _ _

end Sys2Proof.Machine

/-! ### The decode statements (spec/42_decode.md): the exact next state of DEC, the ReplyState it leaves, the bits it
ignores, and a changed checksum byte -/

namespace Sys2Proof.Machine

/-! #### All reply registers or none -/

/-- R_LAPMS from reply bytes 9 to 12 (R147, R148). -/
theorem lapTimeMs_lapTicks (f : ReplyFrame) :
    lapTimeMs (lapTicks f) =
      BitVec.ofNat 32 (4 * (f[9].toNat + 2 ^ 8 * f[10].toNat + 2 ^ 16 * f[11].toNat + 2 ^ 24 * f[12].toNat) / 625) := by
  rw [lapTimeMs, lapTicks_toNat]

/-- Settles O19: the two sides of the checksum gate, the controller registers being those of the frame's wire bytes. -/
theorem decAllOrNothing : Obligations.DecAllOrNothing := by
  refine ⟨(decode_eq_dec_iff _).2 rfl, fun s => ⟨fun h => ⟨(writeReply s.ports.frameIn s.block).rCtrl, ?_, fun i =>
    ⟨ctrlByte _ i, ctrlByte_getElem? _ i, writeReply_rCtrl _ _ i⟩⟩, exec_dec_of_checksum_ne⟩⟩
  rw [exec_dec_of_checksum h, ← lapTimeMs_lapTicks]
  rfl

/-! #### The ReplyState of a frame -/

/-- The ReplyState that a frame's reply registers hold. -/
def ReplyState.ofFrame (f : ReplyFrame) : ReplyState :=
  .ofRegs (f[0] &&& 0x7F#8) (Vector.ofFn (ctrlValue f)) f[7] (f[8] &&& 0x07#8) (lapTimeMs (lapTicks f))
    (~~~f[13] &&& 0x3F#8)

@[simp] theorem writeReply_replyState (f : ReplyFrame) (b : Block) :
    (writeReply f b).replyState = some (ReplyState.ofFrame f) := rfl

theorem ReplyState.ofFrame_controller (f : ReplyFrame) (i : Fin 6) :
    (ReplyState.ofFrame f).controllers[i] = controllerOfRegs (f[0] &&& 0x7F#8) (ctrlValue f i) i := by
  fin_cases i <;> rfl

theorem ReplyState.ofFrame_connected (f : ReplyFrame) (i : Fin 6) :
    (ReplyState.ofFrame f).controllers[i].connected = connected f i := by
  rw [ofFrame_controller, controllerOfRegs, rStat_connected]

theorem ctrlValue_of_connected {f : ReplyFrame} {i : Fin 6} (h : connected f i = true) :
    ctrlValue f i = ~~~ctrlByte f i := if_pos h

theorem ctrlValue_of_disconnected {f : ReplyFrame} {i : Fin 6} (h : connected f i = false) : ctrlValue f i = 0x00#8 := by
  rw [ctrlValue, h]
  rfl

/-- R143: the throttle is the complement of the low six bits of the wire byte. -/
theorem throttle_toNat (wire : Byte) : ((~~~wire).extractLsb' 0 6).toNat = 63 - wire.toNat % 64 := by
  have hwire := wire.isLt
  rw [BitVec.extractLsb'_toNat, BitVec.toNat_not, Nat.shiftRight_zero]
  omega

/-- R143: lane change and brake are bits of the complement. -/
theorem not_getLsbD (wire : Byte) {k : Nat} (hk : k < 8) : (~~~wire).getLsbD k = !wire.getLsbD k := by
  simp [hk]

/-- R146: carId is the low three bits of reply byte 8. -/
theorem carId_toNat (v : Byte) : ((v &&& 0x07#8).extractLsb' 0 3).toNat = v.toNat % 8 := by
  have hmask : v.toNat &&& (0x07#8).toNat = v.toNat % 8 := Nat.and_two_pow_sub_one_eq_mod v.toNat 3
  rw [BitVec.extractLsb'_toNat, BitVec.toNat_and, Nat.shiftRight_zero, hmask, Nat.mod_mod]

/-- R142: bit 0 of R_STAT is bit 0 of reply byte 0. -/
theorem rStat_trackPowered (v : Byte) : (v &&& 0x7F#8).getLsbD 0 = v.getLsbD 0 := by
  simp

/-- Settles O20: the registers are those DEC writes, and the ReplyState is read off them, for a controller by whether it is
connected. -/
theorem decReplyStateFields : Obligations.DecReplyStateFields := by
  intro s h
  have hctrl (i : Fin 6) := writeReply_rCtrl s.ports.frameIn s.block i
  refine ⟨_, ReplyState.ofFrame s.ports.frameIn, exec_dec_of_checksum h, writeReply_replyState _ s.block, rfl,
    rStat_trackPowered _, rfl, rfl, rfl, carId_toNat _, rfl, fun i => ⟨ctrlByte _ i, ctrlByte_getElem? _ i,
      ReplyState.ofFrame_connected _ i, fun hconn => ?_, fun hconn => ?_⟩⟩
  · rw [ReplyState.ofFrame_connected] at hconn
    rw [ReplyState.ofFrame_controller, ctrlValue_of_connected hconn]
    exact ⟨(hctrl i).trans (congrArg some (ctrlValue_of_connected hconn)), throttle_toNat _, not_getLsbD _ (by decide),
      not_getLsbD _ (by decide)⟩
  · rw [ReplyState.ofFrame_connected] at hconn
    rw [ReplyState.ofFrame_controller, ctrlValue_of_disconnected hconn]
    exact ⟨(hctrl i).trans (congrArg some (ctrlValue_of_disconnected hconn)), rfl, rfl, rfl⟩

/-! #### The ignored bits -/

/-- A controller's register reads its wire byte only where the controller is connected (R88). -/
theorem ctrlValue_congr {f g : ReplyFrame} {i : Fin 6} (hstat : f[0] &&& 0x7F#8 = g[0] &&& 0x7F#8)
    (hwire : connected f i = true → f.toList[1 + i.val]? = g.toList[1 + i.val]?) : ctrlValue f i = ctrlValue g i := by
  have hconn : connected f i = connected g i := by rw [← rStat_connected, hstat, rStat_connected]
  cases hf : connected f i with
  | false => rw [ctrlValue_of_disconnected hf, ctrlValue_of_disconnected (hconn ▸ hf)]
  | true =>
    have hbyte : ctrlByte f i = ctrlByte g i := by simpa only [ctrlByte_getElem?, Option.some_inj] using hwire hf
    rw [ctrlValue_of_connected hf, ctrlValue_of_connected (hconn ▸ hf), hbyte]

/-- A masked complement reads the bits of the mask alone. -/
theorem not_and_congr {v w m : Byte} (h : v &&& m = w &&& m) : ~~~v &&& m = ~~~w &&& m := by
  have hmasked (u : Byte) : ~~~u &&& m = ~~~(u &&& m) &&& m := by
    ext k hk
    cases hm : m[k] <;> simp [hm]
  rw [hmasked v, h, ← hmasked w]

/-- Settles O23: each reply register, and with them the block, reads no ignored bit. -/
theorem ignoredReplyBitsDoNotMatter : Obligations.IgnoredReplyBitsDoNotMatter := by
  intro s p q hp hq hstat hwire haux hcar h9 h10 h11 h12 hbuttons
  have hctrl (i : Fin 6) : ctrlValue p.frameIn i = ctrlValue q.frameIn i := ctrlValue_congr hstat (hwire i)
  have hticks : lapTicks p.frameIn = lapTicks q.frameIn := by rw [lapTicks, lapTicks, h9, h10, h11, h12]
  have hreply : writeReply p.frameIn s.block = writeReply q.frameIn s.block := by
    simp only [writeReply, hstat, hctrl, haux, hcar, hticks, not_and_congr hbuttons]
  refine ⟨_, exec_dec_of_checksum (s := s.setPorts p) hp, ?_⟩
  rw [State.setPorts_ports, State.setPorts_block, hreply]
  exact exec_dec_of_checksum (s := s.setPorts q) hq

/-! #### A changed checksum byte -/

/-- R104, R141: the checksum does not read byte 14, so a valid frame has one valid byte there. -/
theorem checksum_ne_of_set_last {T : Byte → Byte} {f : ReplyFrame} {x : Byte} (hvalid : checksum T f.toList = some f[14])
    (hx : x ≠ f[14]) : checksum T (f.set 14 x).toList ≠ some (f.set 14 x)[14] := by
  rw [checksum_replyFrame_set_last, hvalid, Vector.getElem_set_self]
  exact fun h => hx (Option.some_inj.1 h).symm

/-- Settles O24: the frame fails the gate, whatever the table. -/
theorem changedChecksumByteIsCaught : Obligations.ChangedChecksumByteIsCaught :=
  fun s p x hvalid hx => exec_dec_of_checksum_ne (s := s.setPorts { p with frameIn := p.frameIn.set 14 x })
    (checksum_ne_of_set_last hvalid hx)

end Sys2Proof.Machine

/-! ### The exception statements (spec/60_exceptions.md): the one outcome of each request, and the reads of a dutiful
host -/

namespace Sys2Proof.Machine

/-! #### Every request completes -/

/-- Settles O9: each effect of a request is one outcome of R170, with the registers and flags that it names. -/
theorem everyRequestCompletes : Obligations.EveryRequestCompletes := by
  intro s w p rest hp
  obtain ⟨c, heffect, hnext⟩ := step_request_effect hp
  refine ⟨c, hnext, ?_⟩
  cases heffect with
  | illegal hw =>
    rw [hw]
    rfl
  | decPasses hw | decFails hw | enc hw | crc hw =>
    rw [hw]
    simp

/-! #### The reads of a dutiful host -/

/-- R184 (c): a host that heeds the valid bits reads a reply register only where RVALID = 1. -/
theorem Block.rvalid_of_mayRead {b : Block} {r : Reg} (hr : r.isReply = true) (h : b.mayRead r = true) :
    getFlag b.status .rvalid = true := by
  cases r with
  | status | txFrame | crcOut => cases hr
  | rCtrl => exact (Bool.and_eq_true_iff.1 h).1
  | rStat | rAux | rLapCar | rLapMs | rBtn => exact h

/-- R36, R37: where the valid bits agree with the registers, a register that the host duties allow to be read holds a value. -/
theorem Block.FlagsAgree.holds_of_mayRead {b : Block} (hb : b.FlagsAgree) {r : Reg} (h : b.mayRead r = true) :
    b.holds r = true := by
  have reply (hr : r.isReply = true) : b.holds r = true :=
    (hb.rhas r hr).trans (hb.rvalid (rvalid_of_mayRead hr h))
  cases r with
  | status => rfl
  | txFrame => exact Option.isSome_map.trans (hb.txv.trans h)
  | crcOut => exact Option.isSome_map.trans (hb.crcv.trans h)
  | rStat | rCtrl | rAux | rLapCar | rLapMs | rBtn => exact reply rfl

/-- Settles O39: the valid bits that the host heeds say by the invariant that the register holds a value, and reading that
value is all the step does. -/
theorem dutifulReadNeverFaults : Obligations.DutifulReadNeverFaults := by
  intro s r rest hinv hp hmay
  obtain ⟨v, hv⟩ := Option.isSome_iff_exists.1 (hinv.flags.holds_of_mayRead hmay)
  exact ⟨v, hv, (step_readReg hp).trans (performRead_of_some hv)⟩

end Sys2Proof.Machine

/-! ### The reset and hazard statements (spec/70_reset_and_hazards.md): the idle step, and the invariant after reset -/

namespace Sys2Proof.Machine

/-- Settles O8: with an empty list the step answers the state as it is. -/
theorem idleStepChangesNothing : Obligations.IdleStepChangesNothing :=
  fun _ => step_idle

/-- Settles O35: the invariant speaks of the block and the ROM alone, and the block after reset is sound over any ROM. -/
theorem resetMeetsTheInvariant : Obligations.ResetMeetsTheInvariant :=
  (State.inv_iff_sound State.reset).2 (Block.sound_reset (romRead State.reset.rom))

end Sys2Proof.Machine
